-- ==== Sys2Proof/Word.lean ====
section
/-! DEFINITION. The widths of the machine (spec/00_scope.md R8, spec/30_encoding.md R53). -/

namespace Sys2Proof

/-- An 8-bit value: a general register, a timer, a byte of memory, the field `NN` (R8, R53). -/
abbrev Byte := BitVec 8

/-- A 16-bit value: `I`, `PC`, a stack entry, an instruction word (R8, R52). -/
abbrev Word := BitVec 16

/-- A 4-bit register number, the fields `X` and `Y`; every value names a register (R53, R55). -/
abbrev RegNum := BitVec 4

/-- The 4-bit row count `N` of DXYN (R53). -/
abbrev RowCount := BitVec 4

/-- The 12-bit address field `NNN` (R53). -/
abbrev Addr12 := BitVec 12

/-- The 16 logical key lines, bit `k` is key `k` (R144). -/
abbrev KeyLines := BitVec 16

/-- The number of `VF`, the register that doubles as the flag (spec/10_state.md R14). -/
abbrev vfNum : RegNum := 15#4

end Sys2Proof
end

