-- ==== Sys2Proof/Config.lean ====
section
/-! DEFINITION. What is fixed for the block (spec/00_scope.md R6): the parameters the source fixes, the OPEN
parameters as plain data that a state carries, and the one free value, the random draw. -/

namespace Sys2Proof

namespace Config

/-- `MEM_SIZE` (R6). -/
def memSize : Nat := 4096

/-- `FONT_BASE` (R6). -/
def fontBase : Nat := 0x000

/-- `GLYPH_BYTES` (R6). -/
def glyphBytes : Nat := 5

/-- The font region is `FONT_BASE .. FONT_BASE + 79`: 16 glyphs of 5 bytes (R6, spec/20_memory.md R38). -/
abbrev fontBytes : Nat := 80

/-- `PROGRAM_BASE` (R6). -/
def programBase : Nat := 0x200

/-- `MAX_PROGRAM_BYTES` (R6). -/
def maxProgramBytes : Nat := 3584

/-- `DISPLAY_W` (R6). -/
abbrev displayW : Nat := 64

/-- `DISPLAY_H` (R6). -/
abbrev displayH : Nat := 32

/-- `BUZZER_THRESHOLD`: the tone is on iff `ST` is above this (R6, spec/60_exceptions.md R141). -/
def buzzerThreshold : Nat := 1

/-- FREE VALUE: the random byte a CXNN draws when the state holds no byte the host has supplied. It has no body, so
nothing can be proved of it but its range (spec/43_family_A_to_D.md R104; log 2). -/
opaque freeDraw : Nat → Byte

end Config

/-- `VF_ORDER`: which of the two writes of 8XY4..8XYE comes last (R6, spec/42_family_6_to_9.md R87). -/
inductive VfOrder where
  | flagLast
  | resultLast
  deriving DecidableEq, Repr

/-- The OPEN parameters that a running block depends on (R6). They are plain data in the state, and no step changes
them, so a statement about every state is a statement about every choice of them (log 3). -/
structure Params where
  /-- `STACK_CAPACITY`: a number, or `none` for unbounded (spec/92_eei_decisions.md D4). -/
  stackCapacity : Option Nat
  /-- `VF_ORDER` (D5). -/
  vfOrder : VfOrder
  /-- `CPU_HZ`, the configured clock rate; it has no effect on any rule (spec/40_engine_cycle.md R74; D20). -/
  cpuHz : Nat
  deriving DecidableEq, Repr

/-- `CPU_HZ` must be at least 1 (R74). -/
def Params.wf (p : Params) : Bool := decide (1 ≤ p.cpuHz)

/-- The simulator values of D4 and D5. DESIGN CHOICE: `CPU_HZ` = 1, which no rule reads (log 3). -/
def Params.simulator : Params :=
  { stackCapacity := none, vfOrder := .flagLast, cpuHz := 1 }

end Sys2Proof
end

