-- ==== Sys2Proof/Machine/State.lean ====
section
/-! DEFINITION. The state as plain data: the spec's own tuple (spec/10_state.md R34), the levels of its ports
(spec/60_exceptions.md R144), and the model's own fields, the environment and the OPEN parameters. State.reset is the
state before the first cycle (spec/10_state.md R35). -/

namespace Sys2Proof.Machine

/-- Memory: (address, byte) pairs, addresses rising, none equal to what an unlisted address reads as
(`Memory.wf` in Sys2Proof/Machine/Memory.lean; spec/20_memory.md R36). -/
abbrev Memory := List Host.Cell

/-- The display grid, row `y` from 0 to 31, column `x` from 0 to 63; `true` is on (spec/10_state.md R26). -/
structure Grid where
  rows : Vector (Vector Bool Config.displayW) Config.displayH
  deriving DecidableEq, Repr

/-- The grid with every pixel off. -/
def Grid.off : Grid := ⟨Vector.replicate Config.displayH (Vector.replicate Config.displayW false)⟩

/-- The interpreter mode (spec/10_state.md R27). -/
inductive Mode where
  | running
  | waitingForKey (r : RegNum)
  deriving DecidableEq, Repr

/-- The faults a cycle can raise, with the info they record (spec/60_exceptions.md R122, codes 1 to 5). -/
inductive CycleFault where
  /-- Decode of a word outside the table (R123). -/
  | illegalInstruction (w : Word)
  /-- 00EE with an empty stack (R124). -/
  | stackUnderflow
  /-- 2NNN at a finite `STACK_CAPACITY`, with the depth (R125). -/
  | stackOverflow (depth : Nat)
  /-- The lowest failing address of a fetch, DXYN, FX33, FX55 or FX65 (R126). -/
  | memoryRange (a : Nat)
  /-- The value of `VX` above 0x0F in EX9E or EXA1 (R127). -/
  | keyRange (v : Byte)
  deriving DecidableEq, Repr

/-- Why a startup failed (spec/60_exceptions.md R128). -/
inductive LoadReason where
  | noDisplay
  | noAudio
  | noFile
  | imageTooLong
  deriving DecidableEq, Repr

/-- What `Faulted(f)` records: a cycle's fault with its `fetch_pc` (spec/40_engine_cycle.md R75), or a failed startup,
which has none (spec/60_exceptions.md R122, R128). -/
inductive FaultRecord where
  | inCycle (f : CycleFault) (fetchPc : Word)
  | loadFailure (reason : LoadReason)
  deriving DecidableEq, Repr

/-- The run status (spec/10_state.md R31). -/
inductive Status where
  | run
  | stopped
  | faulted (r : FaultRecord)
  deriving DecidableEq, Repr

/-- One turn of one agent (spec/40_engine_cycle.md R78). -/
inductive Event where
  /-- The engine takes a cycle (R64). -/
  | engine
  /-- The tick source sends one tick (spec/60_exceptions.md R135). -/
  | tick
  /-- The tick source wakes and looks for the shutdown signal (spec/60_exceptions.md R147). -/
  | observeShutdown
  /-- The host changes the key lines (spec/60_exceptions.md R145). -/
  | setKeys (k : KeyLines)
  /-- The host sets `window_open` to 0 (spec/60_exceptions.md R145). -/
  | closeWindow
  /-- The host supplies a byte for a coming CXNN (spec/60_exceptions.md R145). -/
  | supplyDraw (b : Byte)
  deriving DecidableEq, Repr

/-- The levels of the ports between steps (spec/60_exceptions.md R144). -/
structure Ports where
  /-- `keys`, in. -/
  keys : KeyLines
  /-- `window_open`, in. -/
  windowOpen : Bool
  /-- `frame_out`, out: the grid as the last completed cycle presented it. -/
  frameOut : Grid
  /-- `shutdown`, out: raised when the run has stopped cleanly. -/
  shutdown : Bool
  deriving DecidableEq, Repr

/-- The model's own fields: what the agents around the engine do next (log 1, 2, 20). -/
structure Env where
  /-- The coming turns; when it is empty the engine has the turn (log 1). -/
  agenda : List Event
  /-- Bytes the host has supplied on the `rand` port, for the coming CXNN (log 2). -/
  draws : List Byte
  /-- How many draws were taken from the free value `Config.freeDraw` (log 2). -/
  drawCount : Nat
  /-- The tick source still runs (log 20). -/
  tickAlive : Bool
  deriving DecidableEq, Repr

/-- The complete state (spec/10_state.md R34), then the ports, the environment and the parameters. -/
structure State where
  mem : Memory
  v : Vector Byte 16
  i : Word
  pc : Word
  /-- The call stack, the top entry last (spec/10_state.md R20, R21). -/
  stack : List Word
  dt : Byte
  st : Byte
  grid : Grid
  mode : Mode
  /-- `pending_ticks` (spec/10_state.md R28). -/
  pendingTicks : Nat
  buzzer : Bool
  status : Status
  ports : Ports
  env : Env
  params : Params
  deriving DecidableEq, Repr

/-- Why a step or a meaning does not answer a next state. -/
inductive Fault where
  /-- Raised by a MEANING, never by a step: the spec's `raise f`. The cycle around it answers the next state of
  spec/40_engine_cycle.md R75, with `status` = Faulted. Safe: it is the fault the spec names, where it names it. -/
  | raised (f : CycleFault)
  /-- Raised by a STEP only: an engine cycle is asked for and `status` is not `Run`, so none can begin
  (spec/40_engine_cycle.md R64; spec/60_exceptions.md R131). Safe: the spec gives no such cycle (log 8). -/
  | runEnded
  deriving DecidableEq, Repr

/-- Instructions without a meaning: none in this model. -/
inductive Refusal where
  /-- Raised by an arm of `exec` whose instruction has no meaning yet. Safe: the machine stops. No arm raises it. -/
  | notModelled (mnemonic : String)
  deriving DecidableEq, Repr

/-- The port levels before the first cycle. DESIGN CHOICE: no key down, window open, nothing presented, no shutdown
(log 1, log 22). -/
def Ports.reset : Ports := { keys := 0#16, windowOpen := true, frameOut := Grid.off, shutdown := false }

/-- DESIGN CHOICE: an environment that does nothing of itself; the tick source runs (log 1, log 2, log 20). -/
def Env.reset : Env := { agenda := [], draws := [], drawCount := 0, tickAlive := true }

/-- The state after reset (spec/10_state.md R35; the rows marked D8 there are DESIGN CHOICES, log 6; memory lists
nothing, log 4 and log 5; the parameters are log 3). -/
def State.reset : State where
  mem := []
  v := Vector.replicate 16 0#8
  i := 0#16
  pc := 0x200#16
  stack := []
  dt := 0#8
  st := 0#8
  grid := Grid.off
  mode := .running
  pendingTicks := 0
  buzzer := false
  status := .run
  ports := Ports.reset
  env := Env.reset
  params := Params.simulator

end Sys2Proof.Machine
end

