-- ==== Sys2Proof/Machine/Memory.lean ====
section
/-! DEFINITION. Memory: what an unlisted address reads as, reading and writing a byte, and the canonical form
(spec/20_memory.md R36 to R51). These operations do not check the address: the range check of R43 and R44 is
`inRange` in Sys2Proof/Machine/Ops.lean, made before any of them. -/

namespace Sys2Proof.Machine

/-- Glyphs 0 to 7 (spec/92_eei_decisions.md D10). PRESUMED: the source does not give the bytes (log 4). -/
def fontGlyphs0to7 : List Byte :=
  [0xF0, 0x90, 0x90, 0x90, 0xF0] ++ [0x20, 0x60, 0x20, 0x20, 0x70] ++
  [0xF0, 0x10, 0xF0, 0x80, 0xF0] ++ [0xF0, 0x10, 0xF0, 0x10, 0xF0] ++
  [0x90, 0x90, 0xF0, 0x10, 0x10] ++ [0xF0, 0x80, 0xF0, 0x10, 0xF0] ++
  [0xF0, 0x80, 0xF0, 0x90, 0xF0] ++ [0xF0, 0x10, 0x20, 0x40, 0x40]

/-- Glyphs 8 to F (spec/92_eei_decisions.md D10). PRESUMED (log 4). -/
def fontGlyphs8toF : List Byte :=
  [0xF0, 0x90, 0xF0, 0x90, 0xF0] ++ [0xF0, 0x90, 0xF0, 0x10, 0xF0] ++
  [0xF0, 0x90, 0xF0, 0x90, 0x90] ++ [0xE0, 0x90, 0xE0, 0x90, 0xE0] ++
  [0xF0, 0x80, 0x80, 0x80, 0xF0] ++ [0xE0, 0x90, 0x90, 0x90, 0xE0] ++
  [0xF0, 0x80, 0xF0, 0x80, 0xF0] ++ [0xF0, 0x80, 0xF0, 0x80, 0x80]

/-- The simulator value of `FONT`, 80 bytes (spec/92_eei_decisions.md D10; log 4). -/
def fontTable : List Byte := fontGlyphs0to7 ++ fontGlyphs8toF

/-- What an address no cell lists reads as: the reset contents, the font at 0x000..0x04F and the fill 0x00 above it
(spec/20_memory.md R38; log 4, log 5). -/
def Memory.unlisted (a : Nat) : Byte := fontTable.getD (a - Config.fontBase) 0x00#8

/-- The byte at an address (spec/20_memory.md R47). -/
def Memory.read : Memory → Nat → Byte
  | [], a => Memory.unlisted a
  | (k, c) :: m, a => if k = a then c else Memory.read m a

/-- Store a byte at an address, keeping the canonical form. -/
def Memory.write : Memory → Nat → Byte → Memory
  | [], a, b => if b = Memory.unlisted a then [] else [(a, b)]
  | (k, c) :: m, a, b =>
    if a < k then (if b = Memory.unlisted a then (k, c) :: m else (a, b) :: (k, c) :: m)
    else if a = k then (if b = Memory.unlisted a then m else (a, b) :: m)
    else (k, c) :: Memory.write m a b

/-- Store bytes at consecutive addresses, the first first (spec/20_memory.md R47). -/
def Memory.writeList : Memory → Nat → List Byte → Memory
  | m, _, [] => m
  | m, a, b :: bs => Memory.writeList (m.write a b) (a + 1) bs

/-- The bytes at `n` consecutive addresses. -/
def Memory.readList (m : Memory) (a : Nat) : Nat → List Byte
  | 0 => []
  | n + 1 => m.read a :: Memory.readList m (a + 1) n

/-- The canonical form from an address on: addresses rise from `lo`, lie below `MEM_SIZE`, and no cell holds what its
address reads as unlisted. -/
def Memory.wfFrom : Nat → Memory → Bool
  | _, [] => true
  | lo, (a, b) :: m =>
    decide (lo ≤ a) && decide (a < Config.memSize) && decide (b ≠ Memory.unlisted a) && Memory.wfFrom (a + 1) m

/-- The canonical form. -/
def Memory.wf (m : Memory) : Bool := Memory.wfFrom 0 m

end Sys2Proof.Machine
end

