-- ==== Sys2Proof/Machine/Operands.lean ====
section
/-! DEFINITION. The operand forms: immediates and addresses are zero-extended, never sign-extended
(spec/30_encoding.md R55), and the values that an instruction assembles from its operands. -/

namespace Sys2Proof.Machine

/-- `zext_16(NNN)` (spec/00_scope.md R8, spec/30_encoding.md R55). -/
def zextAddr (nnn : Addr12) : Word := nnn.setWidth 16

/-- `zext_16(v)` of a byte (spec/00_scope.md R8). -/
def zextByte (b : Byte) : Word := b.setWidth 16

/-- BNNN's target `zext_16(NNN) + V0` (spec/43_family_A_to_D.md R102). -/
def indexedTarget (nnn : Addr12) (v0 : Byte) : Word := zextAddr nnn + zextByte v0

/-- FX29's glyph address `FONT_BASE + VX * GLYPH_BYTES`, with no mask on `VX` (spec/44_family_E_F.md R118). -/
def glyphAddress (v : Byte) : Word := BitVec.ofNat 16 (Config.fontBase + v.toNat * Config.glyphBytes)

/-- `bcd_h(v) = v div 100` (spec/00_scope.md R9). -/
def bcdHundreds (v : Byte) : Byte := BitVec.ofNat 8 (v.toNat / 100)

/-- `bcd_t(v) = (v div 10) mod 10` (spec/00_scope.md R9). -/
def bcdTens (v : Byte) : Byte := BitVec.ofNat 8 (v.toNat / 10 % 10)

/-- `bcd_o(v) = v mod 10` (spec/00_scope.md R9). -/
def bcdOnes (v : Byte) : Byte := BitVec.ofNat 8 (v.toNat % 10)

/-- The three bytes FX33 stores, hundreds at the lowest address (spec/44_family_E_F.md R119). -/
def bcdBytes (v : Byte) : List Byte := [bcdHundreds v, bcdTens v, bcdOnes v]

/-- The sprite's origin column `VX mod 64` (spec/43_family_A_to_D.md R105, R108). -/
def originX (v : Byte) : Nat := v.toNat % Config.displayW

/-- The sprite's origin row `VY mod 32` (spec/43_family_A_to_D.md R105, R108). -/
def originY (v : Byte) : Nat := v.toNat % Config.displayH

/-- How many registers FX55 and FX65 move: `V0..VX` (spec/44_family_E_F.md R120, R121). -/
def blockCount (x : RegNum) : Nat := x.toNat + 1

end Sys2Proof.Machine
end

