-- ==== Sys2Proof/Machine/Ops.lean ====
section
/-! DEFINITION. The shared operations over registers, memory, stack, keys and ports (spec/00_scope.md R9), and taking
a fault as one operation (spec/40_engine_cycle.md R75). The block has no return from a fault
(spec/60_exceptions.md R131). -/

namespace Sys2Proof.Machine

/-- What a meaning answers. -/
abbrev Out := Host.Outcome State Fault Refusal

/-! ### Registers -/

/-- `V[r]` (spec/10_state.md R13). -/
def State.getV (s : State) (r : RegNum) : Byte := s.v[r.toNat]'r.isLt

/-- `V[r] <- b` (spec/10_state.md R13). -/
def State.setV (s : State) (r : RegNum) (b : Byte) : State := { s with v := s.v.set r.toNat b r.isLt }

/-- `I <- w` (spec/10_state.md R19). -/
def State.setI (s : State) (w : Word) : State := { s with i := w }

/-- `PC <- w` (spec/10_state.md R16). -/
def State.setPc (s : State) (w : Word) : State := { s with pc := w }

/-- The stack is replaced. -/
def State.setStack (s : State) (l : List Word) : State := { s with stack := l }

/-- `DT <- b` (spec/10_state.md R25). -/
def State.setDt (s : State) (b : Byte) : State := { s with dt := b }

/-- `ST <- b` (spec/10_state.md R25). -/
def State.setSt (s : State) (b : Byte) : State := { s with st := b }

/-- The grid is replaced. -/
def State.setGrid (s : State) (g : Grid) : State := { s with grid := g }

/-- Memory is replaced. -/
def State.setMem (s : State) (m : Memory) : State := { s with mem := m }

/-- `mode <- m` (spec/10_state.md R27). -/
def State.setMode (s : State) (m : Mode) : State := { s with mode := m }

/-- `status <- f` (spec/10_state.md R31). -/
def State.setStatus (s : State) (f : Status) : State := { s with status := f }

/-- The environment is replaced. -/
def State.setEnv (s : State) (e : Env) : State := { s with env := e }

/-- The port levels are replaced. -/
def State.setPorts (s : State) (p : Ports) : State := { s with ports := p }

/-! ### Faults -/

/-- `raise f`: the instruction ends and writes nothing (spec/00_scope.md R11). -/
def raise (f : CycleFault) : Out := .fault (.raised f)

/-- TAKING A FAULT (spec/40_engine_cycle.md R75): the state is `saved`, the state at the cycle's start, and `status`
becomes Faulted with the fault and `fetch_pc`, the `PC` of the cycle's start. -/
def State.takeFault (saved : State) (f : CycleFault) : State := saved.setStatus (.faulted (.inCycle f saved.pc))

/-- The fault's code (spec/60_exceptions.md R122). -/
def FaultRecord.code : FaultRecord → Nat
  | .inCycle (.illegalInstruction _) _ => 1
  | .inCycle .stackUnderflow _ => 2
  | .inCycle (.stackOverflow _) _ => 3
  | .inCycle (.memoryRange _) _ => 4
  | .inCycle (.keyRange _) _ => 5
  | .loadFailure _ => 6

/-! ### Memory accesses -/

/-- Do the `n` bytes from `first` on all lie below `MEM_SIZE`? Natural arithmetic, no wrap (spec/20_memory.md R43). -/
def inRange (first n : Nat) : Bool := decide (n = 0 ∨ first + n ≤ Config.memSize)

/-- The lowest failing address of an access that is out of range (spec/20_memory.md R44). -/
def failAddress (first : Nat) : Nat := max first Config.memSize

/-- All `n` bytes are checked before anything is written (spec/20_memory.md R44). -/
def checked (first n : Nat) (k : Out) : Out :=
  if inRange first n then k else raise (.memoryRange (failAddress first))

/-- The bytes of `V0..VX`, `V0` first (spec/44_family_E_F.md R120). -/
def State.blockRegs (s : State) (x : RegNum) : List Byte :=
  (List.range (blockCount x)).map fun k => s.getV (BitVec.ofNat 4 k)

/-- `V[k] <- mem[I + k]` for `k` in `0..X` (spec/44_family_E_F.md R121). -/
def State.loadBlock (s : State) (x : RegNum) : State :=
  { s with v := Vector.ofFn fun k => if k.val < blockCount x then s.mem.read (s.i.toNat + k.val) else s.v[k] }

/-- `I` after a block move: one more for each register moved, mod 65536 (spec/44_family_E_F.md R120, R121). -/
def State.advanceI (s : State) (n : Nat) : State := s.setI (s.i + BitVec.ofNat 16 n)

/-! ### Control flow -/

/-- `PC <- (PC + 2) mod 65536`: the advance at fetch (spec/40_engine_cycle.md R68). -/
def State.advancePc (s : State) : State := s.setPc (s.pc + 2#16)

/-- `skip()` (spec/41_family_0_to_5.md R79). -/
def State.skip (s : State) : State := s.setPc (s.pc + 2#16)

/-- A skip that is taken when the condition holds. -/
def State.skipIf (s : State) (c : Bool) : State := if c then s.skip else s

/-- The stack holds `STACK_CAPACITY` entries (spec/10_state.md R21); never, when the capacity is unbounded. -/
def State.stackFull (s : State) : Bool := s.params.stackCapacity == some s.stack.length

/-- `push(v)`, then the rest of the instruction (spec/10_state.md R21). -/
def push (s : State) (w : Word) (k : State → Out) : Out :=
  if s.stackFull then raise (.stackOverflow s.stack.length) else k (s.setStack (s.stack ++ [w]))

/-- `pop()`, then the rest of the instruction with the popped value (spec/10_state.md R22). -/
def pop (s : State) (k : Word → State → Out) : Out :=
  match s.stack.getLast? with
  | none => raise .stackUnderflow
  | some w => k w (s.setStack s.stack.dropLast)

/-! ### Keys -/

/-- `KeyDown(k)` on the key lines (spec/60_exceptions.md R138). -/
def keyDown (keys : KeyLines) (k : Nat) : Bool := keys.getLsbD k

/-- `scan(keys)`: the least `k` in 0..15 whose line is 1, or none (spec/60_exceptions.md R139). -/
def scan (keys : KeyLines) : Option Nat := (List.range 16).find? (keyDown keys)

/-- The key number `VX` of EX9E and EXA1, checked; then the rest with the level of that key
(spec/44_family_E_F.md R111). -/
def withKey (s : State) (x : RegNum) (k : Bool → Out) : Out :=
  if (s.getV x).toNat > 0xF then raise (.keyRange (s.getV x)) else k (keyDown s.ports.keys (s.getV x).toNat)

/-! ### The random draw -/

/-- `Rand()`: the byte the host supplied, else a free value (spec/43_family_A_to_D.md R104; log 2). -/
def Env.draw (e : Env) : Byte :=
  match e.draws with
  | b :: _ => b
  | [] => Config.freeDraw e.drawCount

/-- One draw has been taken (spec/43_family_A_to_D.md R104; log 2). -/
def Env.afterDraw (e : Env) : Env :=
  match e.draws with
  | _ :: bs => { e with draws := bs }
  | [] => { e with drawCount := e.drawCount + 1 }

end Sys2Proof.Machine
end

