-- ==== Sys2Proof/Machine/Agents.lean ====
section
/-! DEFINITION. The steps of the agents around the engine (spec/40_engine_cycle.md R78): the tick source
(spec/60_exceptions.md R135, R147) and the host (R145). They change pending ticks, port levels and the environment, and
nothing else. -/

namespace Sys2Proof.Machine

/-- Is the block in `Faulted`? -/
def Status.isFaulted : Status → Bool
  | .faulted _ => true
  | .run => false
  | .stopped => false

/-- The tick source sends one tick: `pending_ticks` gains one (R135). It sends none after it has ended, and after
`Faulted` no tick has any effect (R147). -/
def State.tickStep (s : State) : State :=
  if s.env.tickAlive && !s.status.isFaulted then { s with pendingTicks := s.pendingTicks + 1 } else s

/-- The tick source wakes and ends if the shutdown signal is there (R147). -/
def State.observeShutdownStep (s : State) : State :=
  if s.ports.shutdown then s.setEnv { s.env with tickAlive := false } else s

/-- The host sets the key lines (R145). -/
def State.setKeysStep (s : State) (k : KeyLines) : State := s.setPorts { s.ports with keys := k }

/-- The host closes the window (R145). -/
def State.closeWindowStep (s : State) : State := s.setPorts { s.ports with windowOpen := false }

/-- The host supplies a byte for a coming CXNN; bytes are used in the order supplied (R145; log 2). -/
def State.supplyDrawStep (s : State) (b : Byte) : State := s.setEnv { s.env with draws := s.env.draws ++ [b] }

/-- Whose turn it is: the agenda's head, and the engine when the agenda is empty (log 1). -/
def State.turn (s : State) : Event := s.env.agenda.headD .engine

/-- The turn is taken off the agenda. -/
def State.popAgenda (s : State) : State := s.setEnv { s.env with agenda := s.env.agenda.tail }

end Sys2Proof.Machine
end

