-- ==== Sys2Proof/Machine/Family0to5.lean ====
section
/-! DEFINITION. The meanings of 00E0, 00EE, 1NNN, 2NNN, 3XNN, 4XNN and 5XY0 (spec/41_family_0_to_5.md). `PC` already
holds `fetch_pc + 2` (spec/10_state.md R16). -/

namespace Sys2Proof.Machine

/-- R80. -/
def execCls (s : State) : Out := .next (s.setGrid Grid.off)

/-- R81. -/
def execRet (s : State) : Out := pop s fun w t => .next (t.setPc w)

/-- R82. -/
def execJp (nnn : Addr12) (s : State) : Out := .next (s.setPc (zextAddr nnn))

/-- R83. -/
def execCall (nnn : Addr12) (s : State) : Out := push s s.pc fun t => .next (t.setPc (zextAddr nnn))

/-- R84. -/
def execSeImm (x : RegNum) (nn : Byte) (s : State) : Out := .next (s.skipIf (s.getV x == nn))

/-- R85. -/
def execSneImm (x : RegNum) (nn : Byte) (s : State) : Out := .next (s.skipIf (s.getV x != nn))

/-- R86. -/
def execSeReg (x y : RegNum) (s : State) : Out := .next (s.skipIf (s.getV x == s.getV y))

end Sys2Proof.Machine
end

