-- ==== Sys2Proof/Machine/Flags.lean ====
section
/-! DEFINITION. The flags that 8XY4 to 8XYE put in `VF`, computed on natural numbers (spec/42_family_6_to_9.md R94 to
R98, R100), and the write of result and flag in the order `VF_ORDER` fixes (R87). DXYN's collision is
Sys2Proof/Machine/Display.lean. -/

namespace Sys2Proof.Machine

/-- The flag as a register value: 1 or 0. -/
def flagByte (c : Bool) : Byte := if c then 1#8 else 0#8

/-- 8XY4: the sum does not fit 8 bits (R94). -/
def carry (a b : Byte) : Bool := decide (256 ≤ a.toNat + b.toNat)

/-- 8XY5 and 8XY7: no borrow in `a - b` (R95, R97). -/
def noBorrow (a b : Byte) : Bool := decide (b.toNat ≤ a.toNat)

/-- 8XY6: the bit shifted out to the right (R96). -/
def lowBit (b : Byte) : Bool := b.getLsbD 0

/-- 8XYE: the bit shifted out to the left (R98). -/
def highBit (b : Byte) : Bool := b.getLsbD 7

/-- `writeRF(r, f)` (R87). -/
def State.writeRF (s : State) (x : RegNum) (r : Byte) (f : Bool) : State :=
  match s.params.vfOrder with
  | .flagLast => (s.setV x r).setV vfNum (flagByte f)
  | .resultLast => (s.setV vfNum (flagByte f)).setV x r

end Sys2Proof.Machine
end

