-- ==== Sys2Proof/Machine/Family6to9.lean ====
section
/-! DEFINITION. The meanings of 6XNN, 7XNN, 8XY0 to 8XY7, 8XYE and 9XY0 (spec/42_family_6_to_9.md). Operands are read
before any write (spec/00_scope.md R10). -/

namespace Sys2Proof.Machine

/-- R88. -/
def execLdImm (x : RegNum) (nn : Byte) (s : State) : Out := .next (s.setV x nn)

/-- R89; no flag. -/
def execAddImm (x : RegNum) (nn : Byte) (s : State) : Out := .next (s.setV x (s.getV x + nn))

/-- R90. -/
def execLdReg (x y : RegNum) (s : State) : Out := .next (s.setV x (s.getV y))

/-- R91; no flag. -/
def execOrReg (x y : RegNum) (s : State) : Out := .next (s.setV x (s.getV x ||| s.getV y))

/-- R92; no flag. -/
def execAndReg (x y : RegNum) (s : State) : Out := .next (s.setV x (s.getV x &&& s.getV y))

/-- R93; no flag. -/
def execXorReg (x y : RegNum) (s : State) : Out := .next (s.setV x (s.getV x ^^^ s.getV y))

/-- R94. -/
def execAddReg (x y : RegNum) (s : State) : Out :=
  .next (s.writeRF x (s.getV x + s.getV y) (carry (s.getV x) (s.getV y)))

/-- R95. -/
def execSub (x y : RegNum) (s : State) : Out :=
  .next (s.writeRF x (s.getV x - s.getV y) (noBorrow (s.getV x) (s.getV y)))

/-- R96; the operand is `VY`, `VX` is not read. -/
def execShr (x y : RegNum) (s : State) : Out := .next (s.writeRF x (s.getV y >>> 1) (lowBit (s.getV y)))

/-- R97. -/
def execSubn (x y : RegNum) (s : State) : Out :=
  .next (s.writeRF x (s.getV y - s.getV x) (noBorrow (s.getV y) (s.getV x)))

/-- R98; the operand is `VY`, `VX` is not read. -/
def execShl (x y : RegNum) (s : State) : Out := .next (s.writeRF x (s.getV y <<< 1) (highBit (s.getV y)))

/-- R99. -/
def execSneReg (x y : RegNum) (s : State) : Out := .next (s.skipIf (s.getV x != s.getV y))

end Sys2Proof.Machine
end

