-- ==== Sys2Proof/Machine/Display.lean ====
section
/-! DEFINITION. The display model: `clear()` (spec/41_family_0_to_5.md R80) and `draw_sprite()`
(spec/43_family_A_to_D.md R106), pixel by pixel as the spec's loops visit them. -/

namespace Sys2Proof.Machine

/-- `Grid[x][y]` (spec/10_state.md R26). -/
def Grid.pixel (g : Grid) (x : Fin Config.displayW) (y : Fin Config.displayH) : Bool := g.rows[y][x]

/-- `Grid[x][y] <- not Grid[x][y]` (R106). -/
def Grid.flip (g : Grid) (x : Fin Config.displayW) (y : Fin Config.displayH) : Grid :=
  ⟨g.rows.set y (g.rows[y].set x (!g.rows[y][x]))⟩

/-- The grid and the collision accumulator while a sprite is drawn. -/
abbrev Drawing := Grid × Bool

/-- A set sprite bit at `(x, y)`: dropped outside the grid, else the pixel is flipped, and an on pixel is a collision
(R106 steps 3 and 4, R108). -/
def plot (d : Drawing) (x y : Nat) : Drawing :=
  if h : x < Config.displayW ∧ y < Config.displayH then
    (d.1.flip ⟨x, h.1⟩ ⟨y, h.2⟩, d.2 || d.1.pixel ⟨x, h.1⟩ ⟨y, h.2⟩)
  else d

/-- The sprite bit for column `c`, the most significant bit first: `row[7 - c]` (R106). -/
def spriteBit (b : Byte) (c : Nat) : Bool := b.getLsbD (7 - c)

/-- One row of a sprite: columns 0 to 7 at `(x0 + c, y)` (R106). -/
def drawRow (x0 y : Nat) (b : Byte) (d : Drawing) : Drawing :=
  (List.range 8).foldl (fun d c => if spriteBit b c then plot d (x0 + c) y else d) d

/-- The rows of a sprite, from row `y` downward (R106). -/
def drawRows (x0 y : Nat) : List Byte → Drawing → Drawing
  | [], d => d
  | b :: bs, d => drawRows x0 (y + 1) bs (drawRow x0 y b d)

/-- `draw_sprite(x0, y0, rows, row)`: the accumulator starts at false; answers the grid and the collision (R106). -/
def drawSprite (g : Grid) (x0 y0 : Nat) (row : List Byte) : Drawing := drawRows x0 y0 row (g, false)

end Sys2Proof.Machine
end

