-- ==== Sys2Proof/Machine/FamilyAtoD.lean ====
section
/-! DEFINITION. The meanings of ANNN, BNNN, CXNN and DXYN (spec/43_family_A_to_D.md). -/

namespace Sys2Proof.Machine

/-- R101. -/
def execLdI (nnn : Addr12) (s : State) : Out := .next (s.setI (zextAddr nnn))

/-- R102; the register is always `V0`. -/
def execJpV0 (nnn : Addr12) (s : State) : Out := .next (s.setPc (indexedTarget nnn (s.getV 0#4)))

/-- R103; the draw is taken whatever `NN` is. -/
def execRnd (x : RegNum) (nn : Byte) (s : State) : Out :=
  .next ((s.setV x (s.env.draw &&& nn)).setEnv s.env.afterDraw)

/-- DXYN's drawing: origin and rows are read from the state before `VF` is written (R105, D6). -/
def State.drawn (s : State) (x y : RegNum) (n : RowCount) : Drawing :=
  drawSprite s.grid (originX (s.getV x)) (originY (s.getV y)) (s.mem.readList s.i.toNat n.toNat)

/-- R105. -/
def execDrw (x y : RegNum) (n : RowCount) (s : State) : Out :=
  checked s.i.toNat n.toNat
    (.next ((s.setV vfNum (flagByte (s.drawn x y n).2)).setGrid (s.drawn x y n).1))

end Sys2Proof.Machine
end

