-- ==== Sys2Proof/Machine/FamilyEF.lean ====
section
/-! DEFINITION. The meanings of EX9E, EXA1, FX07, FX0A, FX15, FX18, FX1E, FX29, FX33, FX55 and FX65
(spec/44_family_E_F.md). -/

namespace Sys2Proof.Machine

/-- R111. -/
def execSkp (x : RegNum) (s : State) : Out := withKey s x fun down => .next (s.skipIf down)

/-- R112. -/
def execSknp (x : RegNum) (s : State) : Out := withKey s x fun down => .next (s.skipIf (!down))

/-- R113; the read is before this cycle's tick poll. -/
def execLdVxDt (x : RegNum) (s : State) : Out := .next (s.setV x s.dt)

/-- R114; `VX` is written by the waiting cycle that finds a key. -/
def execLdVxK (x : RegNum) (s : State) : Out := .next (s.setMode (.waitingForKey x))

/-- R115. -/
def execLdDtVx (x : RegNum) (s : State) : Out := .next (s.setDt (s.getV x))

/-- R116. -/
def execLdStVx (x : RegNum) (s : State) : Out := .next (s.setSt (s.getV x))

/-- R117; no flag. -/
def execAddI (x : RegNum) (s : State) : Out := .next (s.setI (s.i + zextByte (s.getV x)))

/-- R118. -/
def execLdF (x : RegNum) (s : State) : Out := .next (s.setI (glyphAddress (s.getV x)))

/-- R119. -/
def execLdB (x : RegNum) (s : State) : Out :=
  checked s.i.toNat 3 (.next (s.setMem (s.mem.writeList s.i.toNat (bcdBytes (s.getV x)))))

/-- R120. -/
def execLdIVx (x : RegNum) (s : State) : Out :=
  checked s.i.toNat (blockCount x)
    (.next ((s.setMem (s.mem.writeList s.i.toNat (s.blockRegs x))).advanceI (blockCount x)))

/-- R121. -/
def execLdVxI (x : RegNum) (s : State) : Out :=
  checked s.i.toNat (blockCount x) (.next ((s.loadBlock x).advanceI (blockCount x)))

end Sys2Proof.Machine
end

