-- ==== Sys2Proof/Syntax.lean ====
section
/-! DEFINITION. The instructions: one constructor for each of the 34 rows of the opcode table
(spec/30_encoding.md R57). A field has the width its row gives it (R53), so every term is an instruction the table
has. -/

namespace Sys2Proof

/-- The 34 instructions of R57, in the table's order. -/
inductive Instr where
  /-- `00E0` CLS (R80). -/
  | cls
  /-- `00EE` RET (R81). -/
  | ret
  /-- `1NNN` JP nnn (R82). -/
  | jp (nnn : Addr12)
  /-- `2NNN` CALL nnn (R83). -/
  | call (nnn : Addr12)
  /-- `3XNN` SE Vx, nn (R84). -/
  | seImm (x : RegNum) (nn : Byte)
  /-- `4XNN` SNE Vx, nn (R85). -/
  | sneImm (x : RegNum) (nn : Byte)
  /-- `5XY0` SE Vx, Vy (R86). -/
  | seReg (x y : RegNum)
  /-- `6XNN` LD Vx, nn (R88). -/
  | ldImm (x : RegNum) (nn : Byte)
  /-- `7XNN` ADD Vx, nn (R89). -/
  | addImm (x : RegNum) (nn : Byte)
  /-- `8XY0` LD Vx, Vy (R90). -/
  | ldReg (x y : RegNum)
  /-- `8XY1` OR Vx, Vy (R91). -/
  | orReg (x y : RegNum)
  /-- `8XY2` AND Vx, Vy (R92). -/
  | andReg (x y : RegNum)
  /-- `8XY3` XOR Vx, Vy (R93). -/
  | xorReg (x y : RegNum)
  /-- `8XY4` ADD Vx, Vy (R94). -/
  | addReg (x y : RegNum)
  /-- `8XY5` SUB Vx, Vy (R95). -/
  | sub (x y : RegNum)
  /-- `8XY6` SHR Vx, Vy (R96). -/
  | shr (x y : RegNum)
  /-- `8XY7` SUBN Vx, Vy (R97). -/
  | subn (x y : RegNum)
  /-- `8XYE` SHL Vx, Vy (R98). -/
  | shl (x y : RegNum)
  /-- `9XY0` SNE Vx, Vy (R99). -/
  | sneReg (x y : RegNum)
  /-- `ANNN` LD I, nnn (R101). -/
  | ldI (nnn : Addr12)
  /-- `BNNN` JP V0, nnn (R102). -/
  | jpV0 (nnn : Addr12)
  /-- `CXNN` RND Vx, nn (R103). -/
  | rnd (x : RegNum) (nn : Byte)
  /-- `DXYN` DRW Vx, Vy, n (R105). -/
  | drw (x y : RegNum) (n : RowCount)
  /-- `EX9E` SKP Vx (R111). -/
  | skp (x : RegNum)
  /-- `EXA1` SKNP Vx (R112). -/
  | sknp (x : RegNum)
  /-- `FX07` LD Vx, DT (R113). -/
  | ldVxDt (x : RegNum)
  /-- `FX0A` LD Vx, K (R114). -/
  | ldVxK (x : RegNum)
  /-- `FX15` LD DT, Vx (R115). -/
  | ldDtVx (x : RegNum)
  /-- `FX18` LD ST, Vx (R116). -/
  | ldStVx (x : RegNum)
  /-- `FX1E` ADD I, Vx (R117). -/
  | addI (x : RegNum)
  /-- `FX29` LD F, Vx (R118). -/
  | ldF (x : RegNum)
  /-- `FX33` LD B, Vx (R119). -/
  | ldB (x : RegNum)
  /-- `FX55` LD [I], Vx (R120). -/
  | ldIVx (x : RegNum)
  /-- `FX65` LD Vx, [I] (R121). -/
  | ldVxI (x : RegNum)
  deriving DecidableEq, Repr

end Sys2Proof
end

