-- ==== Sys2Proof/WellFormed.lean ====
section
/-! DEFINITION. Which words, which images and which parameters are well formed. A term of `Instr` needs no check of its
own: every field has exactly the width of its row, and every 4-bit value names a register (spec/30_encoding.md R55).
So the checks are on what comes from outside: an instruction WORD (it matches a row of the opcode table, R57), a program
IMAGE (it fits, spec/60_exceptions.md R145) and the PARAMETERS (`Params.wf`, spec/40_engine_cycle.md R74). -/

namespace Sys2Proof

/-- One row of the opcode table R57: its mnemonic in spec/opcode_table.json, its mask and its match. -/
structure OpcodeRow where
  mnemonic : String
  mask : Word
  bits : Word
  deriving DecidableEq, Repr

/-- A word encodes a row iff `(w AND mask) == match` (R57). -/
def OpcodeRow.covers (r : OpcodeRow) (w : Word) : Bool := w &&& r.mask == r.bits

/-- The rows of the families 0, 1, 2, 3, 4, 5 (spec/41_family_0_to_5.md). -/
def rowsFamily0to5 : List OpcodeRow :=
  [ ⟨"CLS", 0xFFFF#16, 0x00E0#16⟩
  , ⟨"RET", 0xFFFF#16, 0x00EE#16⟩
  , ⟨"JP", 0xF000#16, 0x1000#16⟩
  , ⟨"CALL", 0xF000#16, 0x2000#16⟩
  , ⟨"SE_imm", 0xF000#16, 0x3000#16⟩
  , ⟨"SNE_imm", 0xF000#16, 0x4000#16⟩
  , ⟨"SE_reg", 0xF00F#16, 0x5000#16⟩ ]

/-- The rows of the families 6, 7, 8, 9 (spec/42_family_6_to_9.md). -/
def rowsFamily6to9 : List OpcodeRow :=
  [ ⟨"LD_imm", 0xF000#16, 0x6000#16⟩
  , ⟨"ADD_imm", 0xF000#16, 0x7000#16⟩
  , ⟨"LD_reg", 0xF00F#16, 0x8000#16⟩
  , ⟨"OR", 0xF00F#16, 0x8001#16⟩
  , ⟨"AND", 0xF00F#16, 0x8002#16⟩
  , ⟨"XOR", 0xF00F#16, 0x8003#16⟩
  , ⟨"ADD_reg", 0xF00F#16, 0x8004#16⟩
  , ⟨"SUB", 0xF00F#16, 0x8005#16⟩
  , ⟨"SHR", 0xF00F#16, 0x8006#16⟩
  , ⟨"SUBN", 0xF00F#16, 0x8007#16⟩
  , ⟨"SHL", 0xF00F#16, 0x800E#16⟩
  , ⟨"SNE_reg", 0xF00F#16, 0x9000#16⟩ ]

/-- The rows of the families A, B, C, D (spec/43_family_A_to_D.md). -/
def rowsFamilyAtoD : List OpcodeRow :=
  [ ⟨"LD_I", 0xF000#16, 0xA000#16⟩
  , ⟨"JP_V0", 0xF000#16, 0xB000#16⟩
  , ⟨"RND", 0xF000#16, 0xC000#16⟩
  , ⟨"DRW", 0xF000#16, 0xD000#16⟩ ]

/-- The rows of the families E, F (spec/44_family_E_F.md). -/
def rowsFamilyEF : List OpcodeRow :=
  [ ⟨"SKP", 0xF0FF#16, 0xE09E#16⟩
  , ⟨"SKNP", 0xF0FF#16, 0xE0A1#16⟩
  , ⟨"LD_Vx_DT", 0xF0FF#16, 0xF007#16⟩
  , ⟨"LD_Vx_K", 0xF0FF#16, 0xF00A#16⟩
  , ⟨"LD_DT_Vx", 0xF0FF#16, 0xF015#16⟩
  , ⟨"LD_ST_Vx", 0xF0FF#16, 0xF018#16⟩
  , ⟨"ADD_I", 0xF0FF#16, 0xF01E#16⟩
  , ⟨"LD_F", 0xF0FF#16, 0xF029#16⟩
  , ⟨"LD_B", 0xF0FF#16, 0xF033#16⟩
  , ⟨"LD_I_Vx", 0xF0FF#16, 0xF055#16⟩
  , ⟨"LD_Vx_I", 0xF0FF#16, 0xF065#16⟩ ]

/-- The 34 rows of the opcode table, in its order (R57). -/
def opcodeRows : List OpcodeRow := rowsFamily0to5 ++ rowsFamily6to9 ++ rowsFamilyAtoD ++ rowsFamilyEF

/-- A word is well formed iff some row of the table covers it; the others are the illegal words (R57, R58). -/
def wellFormedWord (w : Word) : Bool := opcodeRows.any fun r => r.covers w

/-- The row of the table that an instruction stands for (R57). -/
def Instr.row : Instr → OpcodeRow
  | .cls => ⟨"CLS", 0xFFFF#16, 0x00E0#16⟩
  | .ret => ⟨"RET", 0xFFFF#16, 0x00EE#16⟩
  | .jp _ => ⟨"JP", 0xF000#16, 0x1000#16⟩
  | .call _ => ⟨"CALL", 0xF000#16, 0x2000#16⟩
  | .seImm _ _ => ⟨"SE_imm", 0xF000#16, 0x3000#16⟩
  | .sneImm _ _ => ⟨"SNE_imm", 0xF000#16, 0x4000#16⟩
  | .seReg _ _ => ⟨"SE_reg", 0xF00F#16, 0x5000#16⟩
  | .ldImm _ _ => ⟨"LD_imm", 0xF000#16, 0x6000#16⟩
  | .addImm _ _ => ⟨"ADD_imm", 0xF000#16, 0x7000#16⟩
  | .ldReg _ _ => ⟨"LD_reg", 0xF00F#16, 0x8000#16⟩
  | .orReg _ _ => ⟨"OR", 0xF00F#16, 0x8001#16⟩
  | .andReg _ _ => ⟨"AND", 0xF00F#16, 0x8002#16⟩
  | .xorReg _ _ => ⟨"XOR", 0xF00F#16, 0x8003#16⟩
  | .addReg _ _ => ⟨"ADD_reg", 0xF00F#16, 0x8004#16⟩
  | .sub _ _ => ⟨"SUB", 0xF00F#16, 0x8005#16⟩
  | .shr _ _ => ⟨"SHR", 0xF00F#16, 0x8006#16⟩
  | .subn _ _ => ⟨"SUBN", 0xF00F#16, 0x8007#16⟩
  | .shl _ _ => ⟨"SHL", 0xF00F#16, 0x800E#16⟩
  | .sneReg _ _ => ⟨"SNE_reg", 0xF00F#16, 0x9000#16⟩
  | .ldI _ => ⟨"LD_I", 0xF000#16, 0xA000#16⟩
  | .jpV0 _ => ⟨"JP_V0", 0xF000#16, 0xB000#16⟩
  | .rnd _ _ => ⟨"RND", 0xF000#16, 0xC000#16⟩
  | .drw _ _ _ => ⟨"DRW", 0xF000#16, 0xD000#16⟩
  | .skp _ => ⟨"SKP", 0xF0FF#16, 0xE09E#16⟩
  | .sknp _ => ⟨"SKNP", 0xF0FF#16, 0xE0A1#16⟩
  | .ldVxDt _ => ⟨"LD_Vx_DT", 0xF0FF#16, 0xF007#16⟩
  | .ldVxK _ => ⟨"LD_Vx_K", 0xF0FF#16, 0xF00A#16⟩
  | .ldDtVx _ => ⟨"LD_DT_Vx", 0xF0FF#16, 0xF015#16⟩
  | .ldStVx _ => ⟨"LD_ST_Vx", 0xF0FF#16, 0xF018#16⟩
  | .addI _ => ⟨"ADD_I", 0xF0FF#16, 0xF01E#16⟩
  | .ldF _ => ⟨"LD_F", 0xF0FF#16, 0xF029#16⟩
  | .ldB _ => ⟨"LD_B", 0xF0FF#16, 0xF033#16⟩
  | .ldIVx _ => ⟨"LD_I_Vx", 0xF0FF#16, 0xF055#16⟩
  | .ldVxI _ => ⟨"LD_Vx_I", 0xF0FF#16, 0xF065#16⟩

/-- A program image fits below `MEM_SIZE` from `PROGRAM_BASE` (spec/70_reset_and_hazards.md R152). -/
def wellFormedImage (image : List Byte) : Bool := decide (image.length ≤ Config.maxProgramBytes)

end Sys2Proof
end

