-- ==== Sys2Proof/Decode.lean ====
section
/-! DEFINITION. The decoder, total on all words and on all byte lists, rejecting by name (spec/30_encoding.md R56), and
after it the encoder, written from the formats of R54 and the table of R57. Decoding reads nothing but the word. -/

namespace Sys2Proof

/-- Why the decoder rejects. -/
inductive DecodeError where
  /-- The word is in no row of the table: the spec's `IllegalInstruction(w)` (R56, R58). -/
  | illegalInstruction (w : Word)
  /-- Fewer than the two bytes that every instruction has (R52); a fetch never meets this. -/
  | truncated
  deriving DecidableEq, Repr

/-- `op = w[15:12]` (R53). -/
def opField (w : Word) : BitVec 4 := w.extractLsb' 12 4

/-- `X = w[11:8]` (R53). -/
def xField (w : Word) : RegNum := w.extractLsb' 8 4

/-- `Y = w[7:4]` (R53). -/
def yField (w : Word) : RegNum := w.extractLsb' 4 4

/-- `N = w[3:0]` (R53). -/
def nField (w : Word) : BitVec 4 := w.extractLsb' 0 4

/-- `NN = w[7:0]` (R53). -/
def nnField (w : Word) : Byte := w.extractLsb' 0 8

/-- `NNN = w[11:0]` (R53). -/
def nnnField (w : Word) : Addr12 := w.extractLsb' 0 12

/-- Family 0 holds 00E0 and 00EE only (R56, R60). -/
def decodeFamily0 (w : Word) : Except DecodeError Instr :=
  if w = 0x00E0#16 then .ok .cls
  else if w = 0x00EE#16 then .ok .ret
  else .error (.illegalInstruction w)

/-- Families 5 and 9: the low digit must be 0 (R56). -/
def decodeXY0 (w : Word) (i : RegNum → RegNum → Instr) : Except DecodeError Instr :=
  if nField w = 0#4 then .ok (i (xField w) (yField w)) else .error (.illegalInstruction w)

/-- Family 8: the low digit is the sub-opcode (R56). -/
def decodeFamily8 (w : Word) : Except DecodeError Instr :=
  match nField w with
  | 0x0#4 => .ok (.ldReg (xField w) (yField w))
  | 0x1#4 => .ok (.orReg (xField w) (yField w))
  | 0x2#4 => .ok (.andReg (xField w) (yField w))
  | 0x3#4 => .ok (.xorReg (xField w) (yField w))
  | 0x4#4 => .ok (.addReg (xField w) (yField w))
  | 0x5#4 => .ok (.sub (xField w) (yField w))
  | 0x6#4 => .ok (.shr (xField w) (yField w))
  | 0x7#4 => .ok (.subn (xField w) (yField w))
  | 0xE#4 => .ok (.shl (xField w) (yField w))
  | _ => .error (.illegalInstruction w)

/-- Family E: the low byte is the function byte (R56). -/
def decodeFamilyE (w : Word) : Except DecodeError Instr :=
  match nnField w with
  | 0x9E#8 => .ok (.skp (xField w))
  | 0xA1#8 => .ok (.sknp (xField w))
  | _ => .error (.illegalInstruction w)

/-- Family F: the low byte is the function byte (R56). -/
def decodeFamilyF (w : Word) : Except DecodeError Instr :=
  match nnField w with
  | 0x07#8 => .ok (.ldVxDt (xField w))
  | 0x0A#8 => .ok (.ldVxK (xField w))
  | 0x15#8 => .ok (.ldDtVx (xField w))
  | 0x18#8 => .ok (.ldStVx (xField w))
  | 0x1E#8 => .ok (.addI (xField w))
  | 0x29#8 => .ok (.ldF (xField w))
  | 0x33#8 => .ok (.ldB (xField w))
  | 0x55#8 => .ok (.ldIVx (xField w))
  | 0x65#8 => .ok (.ldVxI (xField w))
  | _ => .error (.illegalInstruction w)

/-- The decode of a word, the high digit selecting the family (R56). -/
def decodeWord (w : Word) : Except DecodeError Instr :=
  match opField w with
  | 0x0#4 => decodeFamily0 w
  | 0x1#4 => .ok (.jp (nnnField w))
  | 0x2#4 => .ok (.call (nnnField w))
  | 0x3#4 => .ok (.seImm (xField w) (nnField w))
  | 0x4#4 => .ok (.sneImm (xField w) (nnField w))
  | 0x5#4 => decodeXY0 w .seReg
  | 0x6#4 => .ok (.ldImm (xField w) (nnField w))
  | 0x7#4 => .ok (.addImm (xField w) (nnField w))
  | 0x8#4 => decodeFamily8 w
  | 0x9#4 => decodeXY0 w .sneReg
  | 0xA#4 => .ok (.ldI (nnnField w))
  | 0xB#4 => .ok (.jpV0 (nnnField w))
  | 0xC#4 => .ok (.rnd (xField w) (nnField w))
  | 0xD#4 => .ok (.drw (xField w) (yField w) (nField w))
  | 0xE#4 => decodeFamilyE w
  | _ => decodeFamilyF w -- 0xF, the one digit left

/-- An instruction word is big-endian: the byte at the lower address is `w[15:8]` (spec/20_memory.md R40). -/
def wordOfBytes (hi lo : Byte) : Word := hi ++ lo

/-- The two bytes of a word, the one at the lower address first (spec/20_memory.md R40). -/
def highByte (w : Word) : Byte := w.extractLsb' 8 8

/-- The byte of a word at the higher address (spec/20_memory.md R40). -/
def lowByte (w : Word) : Byte := w.extractLsb' 0 8

/-- The decode of the bytes at an instruction: always exactly two of them (R52, R61). It answers the instruction and the
bytes after it. -/
def decodeBytes : List Byte → Except DecodeError (Instr × List Byte)
  | hi :: lo :: rest =>
    match decodeWord (wordOfBytes hi lo) with
    | .ok i => .ok (i, rest)
    | .error e => .error e
  | _ => .error .truncated

/-- The host's probe: the instruction the decoder reads from the word whose bits are `w`, laid out as the hardware
stores it (high byte first). -/
def decodeTableWord (nbits w : Nat) : Option Instr :=
  let word : Word := BitVec.ofNat 16 (w % 2 ^ nbits)
  match decodeBytes [highByte word, lowByte word] with
  | .ok (i, _) => some i
  | .error _ => none

/-! ### The encoder -/

/-- Format `NNN`: `oooo nnnn nnnn nnnn` (R54). -/
def formatNNN (op : BitVec 4) (nnn : Addr12) : Word := op ++ nnn

/-- Format `XNN`: `oooo xxxx nnnn nnnn` (R54). -/
def formatXNN (op : BitVec 4) (x : RegNum) (nn : Byte) : Word := (op ++ x : BitVec 8) ++ nn

/-- Format `XYS`: `oooo xxxx yyyy ssss` (R54). -/
def formatXYS (op : BitVec 4) (x y : RegNum) (sub : BitVec 4) : Word := (op ++ x : BitVec 8) ++ (y ++ sub : BitVec 8)

/-- Format `XYN`: `oooo xxxx yyyy nnnn` (R54). -/
def formatXYN (op : BitVec 4) (x y : RegNum) (n : RowCount) : Word := (op ++ x : BitVec 8) ++ (y ++ n : BitVec 8)

/-- Format `XFF`: `oooo xxxx ffff ffff` (R54). -/
def formatXFF (op : BitVec 4) (x : RegNum) (f : Byte) : Word := (op ++ x : BitVec 8) ++ f

/-- The word of an instruction (R54, R57). -/
def encode : Instr → Word
  | .cls => 0x00E0#16
  | .ret => 0x00EE#16
  | .jp nnn => formatNNN 0x1#4 nnn
  | .call nnn => formatNNN 0x2#4 nnn
  | .seImm x nn => formatXNN 0x3#4 x nn
  | .sneImm x nn => formatXNN 0x4#4 x nn
  | .seReg x y => formatXYS 0x5#4 x y 0x0#4
  | .ldImm x nn => formatXNN 0x6#4 x nn
  | .addImm x nn => formatXNN 0x7#4 x nn
  | .ldReg x y => formatXYS 0x8#4 x y 0x0#4
  | .orReg x y => formatXYS 0x8#4 x y 0x1#4
  | .andReg x y => formatXYS 0x8#4 x y 0x2#4
  | .xorReg x y => formatXYS 0x8#4 x y 0x3#4
  | .addReg x y => formatXYS 0x8#4 x y 0x4#4
  | .sub x y => formatXYS 0x8#4 x y 0x5#4
  | .shr x y => formatXYS 0x8#4 x y 0x6#4
  | .subn x y => formatXYS 0x8#4 x y 0x7#4
  | .shl x y => formatXYS 0x8#4 x y 0xE#4
  | .sneReg x y => formatXYS 0x9#4 x y 0x0#4
  | .ldI nnn => formatNNN 0xA#4 nnn
  | .jpV0 nnn => formatNNN 0xB#4 nnn
  | .rnd x nn => formatXNN 0xC#4 x nn
  | .drw x y n => formatXYN 0xD#4 x y n
  | .skp x => formatXFF 0xE#4 x 0x9E#8
  | .sknp x => formatXFF 0xE#4 x 0xA1#8
  | .ldVxDt x => formatXFF 0xF#4 x 0x07#8
  | .ldVxK x => formatXFF 0xF#4 x 0x0A#8
  | .ldDtVx x => formatXFF 0xF#4 x 0x15#8
  | .ldStVx x => formatXFF 0xF#4 x 0x18#8
  | .addI x => formatXFF 0xF#4 x 0x1E#8
  | .ldF x => formatXFF 0xF#4 x 0x29#8
  | .ldB x => formatXFF 0xF#4 x 0x33#8
  | .ldIVx x => formatXFF 0xF#4 x 0x55#8
  | .ldVxI x => formatXFF 0xF#4 x 0x65#8

/-- The bytes of an instruction in memory order (R52). -/
def encodeBytes (i : Instr) : List Byte := [highByte (encode i), lowByte (encode i)]

end Sys2Proof
end

