-- ==== Sys2Proof/Machine/Engine.lean ====
section
/-! DEFINITION. The parts of an engine cycle around the execution of an instruction: fetch, service, the waiting cycle
and the closed window (spec/40_engine_cycle.md R65 to R71). Pacing changes no state (R74) and has no part here. -/

namespace Sys2Proof.Machine

/-- The word at `PC`, big-endian, or the lowest failing address (R67; spec/20_memory.md R40, R44). -/
def fetch (s : State) : Except CycleFault Word :=
  if inRange s.pc.toNat 2 then .ok (wordOfBytes (s.mem.read s.pc.toNat) (s.mem.read (s.pc.toNat + 1)))
  else .error (.memoryRange (failAddress s.pc.toNat))

/-- `satdec(t)`: one less, never below zero (spec/10_state.md R24). -/
def satdec (t : Byte) : Byte := if t = 0#8 then 0#8 else t - 1#8

/-- Sub-step (a): one poll of the tick channel (R70; spec/60_exceptions.md R136). -/
def State.pollTick (s : State) : State :=
  if s.pendingTicks = 0 then s
  else { s with pendingTicks := s.pendingTicks - 1, dt := satdec s.dt, st := satdec s.st }

/-- Sub-step (b): the buzzer gate (R70; spec/60_exceptions.md R141). -/
def State.gateBuzzer (s : State) : State := { s with buzzer := decide (Config.buzzerThreshold < s.st.toNat) }

/-- Sub-step (c): the grid is presented on `frame_out` (R70; spec/60_exceptions.md R142). -/
def State.present (s : State) : State := s.setPorts { s.ports with frameOut := s.grid }

/-- The service step of a Running cycle that did not fault: (a), (b), (c) in this order (R70). -/
def State.service (s : State) : State := s.pollTick.gateBuzzer.present

/-- A waiting cycle for register `r` (R71): no fetch, no tick poll; the lowest key down is stored and the mode becomes
Running. -/
def State.waitingCycle (s : State) (r : RegNum) : State :=
  match scan s.ports.keys with
  | some k => ((s.setV r (BitVec.ofNat 8 k)).setMode .running).present
  | none => s.present

/-- The window is closed at a cycle's start: a clean end, and the shutdown signal is sent
(R65; spec/60_exceptions.md R147). -/
def State.stop (s : State) : State := (s.setStatus .stopped).setPorts { s.ports with shutdown := true }

end Sys2Proof.Machine
end

