-- ==== Sys2Proof/Machine/Cycle.lean ====
section
/-! DEFINITION. The engine's cycle (spec/40_engine_cycle.md R64 to R76). -/

namespace Sys2Proof.Machine

/-- What a cycle answers, given what its instruction answered (R66, R75): service after a next state; after a raised
fault the saved state with `status` = Faulted. -/
def finish (saved : State) : Out → Out
  | .next t => .next t.service
  | .fault (.raised f) => .next (saved.takeFault f)
  | .fault .runEnded => .fault .runEnded
  | .refused r => .refused r

/-- The decode and execute of a fetched word, `PC` advanced first (R68, R69). -/
def executeWord (s : State) (w : Word) : Out :=
  match decodeWord w with
  | .ok i => exec i s.advancePc
  | .error _ => raise (.illegalInstruction w)

/-- A Running cycle: fetch, advance, decode and execute, service (R66). -/
def runningCycle (s : State) : Out :=
  match fetch s with
  | .ok w => finish s (executeWord s w)
  | .error f => .next (s.takeFault f)

/-- One engine cycle (R76): none begins unless `status` = Run; a closed window ends the run; else the mode decides. -/
def engineStep (s : State) : Out :=
  match s.status with
  | .stopped => .fault .runEnded
  | .faulted _ => .fault .runEnded
  | .run =>
    if s.ports.windowOpen then
      match s.mode with
      | .running => runningCycle s
      | .waitingForKey r => .next (s.waitingCycle r)
    else .next s.stop

/-- Where `withFetchWord` puts an instruction: at `PC`, or at `PROGRAM_BASE` when `PC` is outside memory (log 24). -/
def State.fetchSlot (s : State) : Word := if inRange s.pc.toNat 2 then s.pc else BitVec.ofNat 16 Config.programBase

end Sys2Proof.Machine
end

