-- ==== Sys2Proof/Machine/Step.lean ====
section
/-! DEFINITION. The step: the agent whose turn it is takes one step (spec/40_engine_cycle.md R78). -/

namespace Sys2Proof.Machine

/-- One step of the agent whose turn it is. An engine step is one cycle (R64). -/
def step (s : State) : Host.Outcome State Fault Refusal :=
  match s.turn with
  | .engine => engineStep s.popAgenda
  | .tick => .next s.popAgenda.tickStep
  | .observeShutdown => .next s.popAgenda.observeShutdownStep
  | .setKeys k => .next (s.popAgenda.setKeysStep k)
  | .closeWindow => .next s.popAgenda.closeWindowStep
  | .supplyDraw b => .next (s.popAgenda.supplyDrawStep b)

/-- `s` with the instruction word `w` where the next step fetches, and with all that makes that step a Running cycle:
the engine's turn, `status` = Run, an open window, mode Running, a `PC` inside memory (log 24). -/
def State.withFetchWord (s : State) (nbits w : Nat) : State :=
  let word : Word := BitVec.ofNat 16 (w % 2 ^ nbits)
  { s with
    pc := s.fetchSlot
    mem := (s.mem.write s.fetchSlot.toNat (highByte word)).write (s.fetchSlot.toNat + 1) (lowByte word)
    mode := .running
    status := .run
    ports := { s.ports with windowOpen := true }
    env := { s.env with agenda := [] } }

end Sys2Proof.Machine
end

