-- ==== Sys2Proof/Machine/Startup.lean ====
section
/-! DEFINITION. The startup sequence (spec/70_reset_and_hazards.md R150 to R152): from the resources, the image and the
OPEN parameters to the state before the first cycle. -/

namespace Sys2Proof.Machine

/-- What startup is given (R151 step 1; spec/60_exceptions.md R128, R144). -/
structure StartupInputs where
  /-- A display surface is available. -/
  display : Bool
  /-- An audio device is available. -/
  audio : Bool
  /-- The program image, or none when the file is not found or unreadable. -/
  image : Option (List Byte)
  deriving DecidableEq, Repr

/-- The byte an address holds after a successful startup: `FONT`, the image from `PROGRAM_BASE`, else `INIT_FILL`
(R151 step 2, R152; spec/10_state.md R35). -/
def startupByte (font : Vector Byte Config.fontBytes) (fill : Nat → Byte) (image : List Byte) (a : Nat) : Byte :=
  if h : a < Config.fontBytes then font[a]
  else if Config.programBase ≤ a ∧ a < Config.programBase + image.length then image.getD (a - Config.programBase) 0#8
  else fill a

/-- The memory whose bytes are given by a function, in the canonical form. -/
def Memory.ofBytes (f : Nat → Byte) : Memory :=
  (List.range Config.memSize).filterMap fun a => if f a = Memory.unlisted a then none else some (a, f a)

/-- The state after a failed startup: no cycle runs (R151; spec/60_exceptions.md R128). DESIGN CHOICE: every other field
as at reset (log 23). -/
def State.loadFailed (reason : LoadReason) : State :=
  { State.reset with status := .faulted (.loadFailure reason) }

/-- The startup sequence (R151), for every choice of the OPEN parameters. The reason recorded is the first failure in the
order display, audio, file, image size (log 23). -/
def State.startup (p : Params) (font : Vector Byte Config.fontBytes) (fill : Nat → Byte) (inp : StartupInputs) : State :=
  if inp.display = false then State.loadFailed .noDisplay
  else if inp.audio = false then State.loadFailed .noAudio
  else
    match inp.image with
    | none => State.loadFailed .noFile
    | some image =>
      if wellFormedImage image then
        { State.reset with params := p, mem := Memory.ofBytes (startupByte font fill image) }
      else State.loadFailed .imageTooLong

end Sys2Proof.Machine
end

