-- ==== Sys2Proof/Safety.lean ====
section
/-! DEFINITION. The terms claims are stated in: when a cycle begins, what it fetches, the machine's invariant, and what a
state keeps. -/

namespace Sys2Proof.Machine

/-- The next step is an engine cycle that begins: the engine's turn, `status` = Run, the window open
(spec/40_engine_cycle.md R64, R65). -/
abbrev State.cycleBegins (s : State) : Prop := s.turn = .engine ∧ s.status = .run ∧ s.ports.windowOpen = true

/-- The next step is a Running cycle whose two fetch bytes lie in memory (spec/40_engine_cycle.md R66, R67). -/
abbrev State.fetches (s : State) : Prop := s.cycleBegins ∧ s.mode = .running ∧ s.pc.toNat + 1 < Config.memSize

/-- The word a Running cycle fetches, as a number: the byte at `PC` is the high byte (spec/20_memory.md R40). -/
def State.fetched (s : State) : Word :=
  BitVec.ofNat 16 ((s.mem.read s.pc.toNat).toNat * 256 + (s.mem.read (s.pc.toNat + 1)).toNat)

/-- The next step fetches and decodes this instruction. -/
abbrev State.runs (s : State) (i : Instr) : Prop := s.fetches ∧ decodeWord s.fetched = .ok i

/-- The state its instruction starts from: the turn taken, `PC` advanced (spec/40_engine_cycle.md R68). -/
def State.executing (s : State) : State := s.popAgenda.advancePc

/-- The depth is at most `STACK_CAPACITY`, when that is a number (spec/10_state.md R20, R21). -/
def State.stackBounded (s : State) : Bool :=
  match s.params.stackCapacity with
  | none => true
  | some c => decide (s.stack.length ≤ c)

/-- The buzzer shows `ST > 1` (spec/60_exceptions.md R141). -/
def State.buzzerShowsSt (s : State) : Bool := s.buzzer == decide (1 < s.st.toNat)

/-- `frame_out` shows the grid (spec/60_exceptions.md R142). -/
def State.frameShowsGrid (s : State) : Bool := s.ports.frameOut == s.grid

/-- The shutdown signal is up exactly when the run has stopped cleanly (spec/60_exceptions.md R147). -/
def State.shutdownShowsStop (s : State) : Bool := s.ports.shutdown == decide (s.status = .stopped)

/-- The machine's invariant: memory is canonical, the stack is within its capacity, the outputs agree with the state, and
the parameters are legal. -/
abbrev State.Inv (s : State) : Prop :=
  s.mem.wf = true ∧ s.stackBounded = true ∧ s.buzzerShowsSt = true ∧ s.frameShowsGrid = true ∧
    s.shutdownShowsStop = true ∧ s.params.wf = true

/-- Registers other than those named are unchanged. -/
def State.regsKept (s t : State) (written : List RegNum) : Prop := ∀ r, r ∉ written → t.getV r = s.getV r

/-- Every byte of memory outside `first .. first + n - 1` is unchanged. -/
def State.memKeptOutside (s t : State) (first n : Nat) : Prop :=
  ∀ a, ¬(first ≤ a ∧ a < first + n) → t.mem.read a = s.mem.read a

/-- A result `r` for `VX` and a flag `f` for `VF` have been written, and nothing else: with `X` = F the parameter
`VF_ORDER` says which of the two `VF` ends with (spec/42_family_6_to_9.md R87; 92_eei_decisions.md D5). -/
def State.resultAndFlag (s t : State) (x : RegNum) (r f : Nat) : Prop :=
  (x ≠ vfNum → (t.getV x).toNat = r ∧ (t.getV vfNum).toNat = f) ∧
  (x = vfNum → (t.getV vfNum).toNat = match s.params.vfOrder with | .flagLast => f | .resultLast => r) ∧
  s.regsKept t [x, vfNum] ∧ t = { s with v := t.v }

/-- The illegal words, family by family, as the spec lists them (spec/30_encoding.md R58). -/
def illegalByFamily (w : Word) : Bool :=
  match w.toNat / 4096 with
  | 0x0 => decide (w.toNat ≠ 0x00E0 ∧ w.toNat ≠ 0x00EE)
  | 0x5 => decide (w.toNat % 16 ≠ 0)
  | 0x8 => [0x8, 0x9, 0xA, 0xB, 0xC, 0xD, 0xF].contains (w.toNat % 16)
  | 0x9 => decide (w.toNat % 16 ≠ 0)
  | 0xE => !([0x9E, 0xA1].contains (w.toNat % 256))
  | 0xF => !([0x07, 0x0A, 0x15, 0x18, 0x1E, 0x29, 0x33, 0x55, 0x65].contains (w.toNat % 256))
  | _ => false

/-- The sprite of `n` rows at `I` with origin `(x0, y0)` has a set bit on the pixel `(x, y)` of the grid: the bit is in
row `y - y0`, column `x - x0`, bit 7 the leftmost (spec/43_family_A_to_D.md R106, R108). -/
def State.spriteCovers (s : State) (x0 y0 n x y : Nat) : Bool :=
  decide (y0 ≤ y) && decide (y < y0 + n) && decide (x0 ≤ x) && decide (x < x0 + 8) &&
    (s.mem.read (s.i.toNat + (y - y0))).getLsbD (7 - (x - x0))

end Sys2Proof.Machine
end

