-- ==== Sys2Proof/Certificates/Slice0/Obligations.lean ====
section
/-! DEFINITION. The statements for the provers. `exec` runs an instruction on the state whose `PC` already holds
`fetch_pc + 2` (spec/10_state.md R16). A clause of the form `t = { s with v := t.v }` is the frame: every field of the
state but those named is unchanged, memory, timers, stack, ports and parameters among them. -/

open Sys2Proof Sys2Proof.Machine

/-! ### Encoding -/

/-- Words written out from the encodings of spec/30_encoding.md R57 decode to the instructions they stand for. -/
def Obligations.SpecWordsDecode : Prop :=
  decodeWord 0x00E0#16 = .ok .cls ∧ decodeWord 0x1234#16 = .ok (.jp 0x234#12) ∧
  decodeWord 0x3342#16 = .ok (.seImm 3#4 0x42#8) ∧ decodeWord 0x80F5#16 = .ok (.sub 0#4 15#4) ∧
  decodeWord 0x812E#16 = .ok (.shl 1#4 2#4) ∧ decodeWord 0x9120#16 = .ok (.sneReg 1#4 2#4) ∧
  decodeWord 0xC30F#16 = .ok (.rnd 3#4 0x0F#8) ∧ decodeWord 0xD015#16 = .ok (.drw 0#4 1#4 5#4) ∧
  decodeWord 0xE59E#16 = .ok (.skp 5#4) ∧ decodeWord 0xF355#16 = .ok (.ldIVx 3#4) ∧
  decodeWord 0x0000#16 = .error (.illegalInstruction 0x0000#16) ∧
  decodeWord 0x5121#16 = .error (.illegalInstruction 0x5121#16)

/-- Decode of encode is the instruction, for every instruction and every operand value; its two bytes, big-endian, decode
to it and leave the bytes after it. -/
def Obligations.DecodeOfEncodeIsTheInstruction : Prop :=
  ∀ (i : Instr) (rest : List Byte),
    decodeWord (encode i) = .ok i ∧ decodeBytes (encodeBytes i ++ rest) = .ok (i, rest)

/-- A word that decodes is the encoding of its instruction: no two words stand for one instruction. -/
def Obligations.EncodeOfDecodeIsTheWord : Prop :=
  ∀ (w : Word) (i : Instr), decodeWord w = .ok i → encode i = w

/-- The decoder accepts exactly the words that a row of the table covers, each under the row of the instruction it answers;
the rejected ones are the words that R58 lists family by family, and each is rejected with itself. -/
def Obligations.DecodeAcceptsExactlyTheTable : Prop :=
  ∀ w : Word,
    (∀ i, decodeWord w = .ok i → i.row ∈ opcodeRows ∧ i.row.covers w = true) ∧
    (wellFormedWord w = true → ∃ i, decodeWord w = .ok i) ∧
    (wellFormedWord w = !illegalByFamily w) ∧
    (decodeWord w = .error (.illegalInstruction w) ↔ illegalByFamily w = true)

/-- No word matches two rows of the opcode table. -/
def Obligations.NoWordMatchesTwoRows : Prop :=
  ∀ (w : Word) (a b : OpcodeRow), a ∈ opcodeRows → b ∈ opcodeRows → a.covers w = true → b.covers w = true → a = b

/-- The host's probe: the word that `decodeTableWord` reads as an instruction is the one the next step runs once
`withFetchWord` has placed it. -/
def Obligations.PlacedWordIsTheOneRun : Prop :=
  ∀ (s : State) (w : Nat) (i : Instr),
    s.mem.wf = true → decodeTableWord 16 w = some i → (s.withFetchWord 16 w).runs i

/-! ### The step -/

/-- A step whose fetched word decodes to `i` is `exec i` on the state with `PC` advanced by 2, followed by the service
step, or by taking the fault it raises. -/
def Obligations.StepRunsTheDecodedInstruction : Prop :=
  ∀ (s : State) (i : Instr), s.runs i →
    s.executing = { s with pc := s.pc + 2#16, env := { s.env with agenda := s.env.agenda.tail } } ∧
    (∀ t, exec i s.executing = .next t → step s = .next t.service) ∧
    (∀ f, exec i s.executing = .fault (.raised f) →
      step s = .next { s.popAgenda with status := .faulted (.inCycle f s.pc) })

/-- Service: a Running cycle that completes consumes exactly one pending tick when there is one, which decrements both
timers, saturating at zero, as the instruction left them; it consumes the tick also when both are zero. A waiting cycle
consumes none. -/
def Obligations.RunningCycleConsumesAtMostOneTick : Prop :=
  (∀ (s t : State) (i : Instr), s.runs i → exec i s.executing = .next t →
    ∃ u, step s = .next u ∧
      (0 < s.pendingTicks → u.pendingTicks + 1 = s.pendingTicks ∧
        u.dt.toNat = t.dt.toNat - 1 ∧ u.st.toNat = t.st.toNat - 1) ∧
      (s.pendingTicks = 0 → u.pendingTicks = 0 ∧ u.dt = t.dt ∧ u.st = t.st)) ∧
  (∀ (s : State) (r : RegNum), s.cycleBegins → s.mode = .waitingForKey r →
    ∃ u, step s = .next u ∧ u.pendingTicks = s.pendingTicks ∧ u.dt = s.dt ∧ u.st = s.st)

/-- The rest of service: the buzzer shows `ST > 1` after the tick, the grid is presented, and nothing else changes. The
place of the gate after the tick is the spec's decision D23. -/
def Obligations.ServiceGatesTheBuzzerAndPresentsTheGrid : Prop :=
  ∀ (s t : State) (i : Instr), s.runs i → exec i s.executing = .next t →
    ∃ u, step s = .next u ∧ u.buzzer = decide (1 < u.st.toNat) ∧ u.ports.frameOut = t.grid ∧ u.grid = t.grid ∧
      u = { t with pendingTicks := u.pendingTicks, dt := u.dt, st := u.st, buzzer := u.buzzer,
                   ports := { s.ports with frameOut := t.grid } }

/-- A fetch with a byte outside memory faults with the lowest failing address and the `PC`; all else is as at the cycle's
start. Fatal is the spec's decision D2. -/
def Obligations.FetchOutsideMemoryFaults : Prop :=
  ∀ s : State, s.cycleBegins → s.mode = .running → 0xFFF ≤ s.pc.toNat →
    step s = .next { s.popAgenda with
      status := .faulted (.inCycle (.memoryRange (max s.pc.toNat 0x1000)) s.pc) }

/-- IllegalInstruction is raised for exactly the words that R58 lists, with the word. -/
def Obligations.IllegalWordFaults : Prop :=
  ∀ s : State, s.fetches →
    (illegalByFamily s.fetched = true →
      step s = .next { s.popAgenda with status := .faulted (.inCycle (.illegalInstruction s.fetched) s.pc) }) ∧
    (∀ t w p, step s = .next t → t.status = .faulted (.inCycle (.illegalInstruction w) p) →
      w = s.fetched ∧ illegalByFamily w = true)

/-- A step that ends in `Faulted` leaves everything as it was when the cycle began, but for `status` with the fault and
`fetch_pc` (and the turn taken off the agenda). The restored state is the spec's decision D14. -/
def Obligations.FaultRestoresTheCycleStart : Prop :=
  ∀ (s t : State) (r : FaultRecord), s.status = .run → step s = .next t → t.status = .faulted r →
    (∃ f, r = .inCycle f s.pc) ∧ t = { s.popAgenda with status := .faulted r }

/-- A closed window ends the run before anything else: `status` is Stopped and shutdown is raised. The place of the check
is the spec's decision D13. -/
def Obligations.ClosedWindowStopsTheRun : Prop :=
  ∀ s : State, s.turn = .engine → s.status = .run → s.ports.windowOpen = false →
    step s = .next { s.popAgenda with status := .stopped, ports := { s.ports with shutdown := true } }

/-- A step answers a next state, except an engine's turn after the run has ended: then no cycle begins. No step
refuses. -/
def Obligations.StepStopsOnlyAfterTheEnd : Prop :=
  ∀ s : State,
    (∃ t, step s = .next t) ∨ (step s = .fault .runEnded ∧ s.turn = .engine ∧ s.status ≠ .run)

/-- After the run has ended no engine cycle begins, and no step changes the status or any state of the block but pending
ticks; after `Faulted` not even those. -/
def Obligations.NothingRunsAfterTheEnd : Prop :=
  ∀ s : State, s.status ≠ .run →
    (s.turn = .engine → step s = .fault .runEnded) ∧
    (∀ t, step s = .next t →
      t = { s with pendingTicks := t.pendingTicks, ports := t.ports, env := t.env } ∧
      (s.status ≠ .stopped → t.pendingTicks = s.pendingTicks))

/-- A waiting cycle: no fetch; the lowest key that is down is stored in the register and the mode becomes Running; with no
key down the wait goes on; the grid is presented; `PC`, timers, pending ticks, buzzer and all else are unchanged. -/
def Obligations.KeyWaitCycle : Prop :=
  ∀ (s : State) (r : RegNum), s.cycleBegins → s.mode = .waitingForKey r →
    ∃ t, step s = .next t ∧
      (∀ k : Fin 16, s.ports.keys[k] = true → (∀ j : Fin 16, j < k → s.ports.keys[j] = false) →
        (t.getV r).toNat = k.val ∧ s.regsKept t [r] ∧ t.mode = .running) ∧
      ((∀ k : Fin 16, s.ports.keys[k] = false) → t.v = s.v ∧ t.mode = s.mode) ∧
      t = { s.popAgenda with v := t.v, mode := t.mode, ports := { s.ports with frameOut := s.grid } }

/-! ### The other agents -/

/-- The tick source's step adds one pending tick and changes nothing else; it adds none once it has ended, which it does
when it observes the shutdown signal, and none after `Faulted`. -/
def Obligations.TickSourceAddsOneUntilShutdown : Prop :=
  ∀ s : State,
    (s.turn = .tick → s.env.tickAlive = true → s.status = .run ∨ s.status = .stopped →
      step s = .next { s.popAgenda with pendingTicks := s.pendingTicks + 1 }) ∧
    (s.turn = .tick → s.env.tickAlive = false ∨ (∃ r, s.status = .faulted r) → step s = .next s.popAgenda) ∧
    (s.turn = .observeShutdown → s.ports.shutdown = true →
      ∃ t, step s = .next t ∧ t.env.tickAlive = false ∧ t = { s with env := t.env }) ∧
    (s.turn = .observeShutdown → s.ports.shutdown = false → step s = .next s.popAgenda)

/-- The host's steps change the input ports and nothing of the block: no memory, register, timer or output. -/
def Obligations.HostChangesInputsOnly : Prop :=
  ∀ s : State,
    (∀ k, s.turn = .setKeys k → step s = .next { s.popAgenda with ports := { s.ports with keys := k } }) ∧
    (s.turn = .closeWindow → step s = .next { s.popAgenda with ports := { s.ports with windowOpen := false } }) ∧
    (∀ b, s.turn = .supplyDraw b →
      ∃ t, step s = .next t ∧ t.env.draws = s.env.draws ++ [b] ∧ t = { s with env := t.env })

/-! ### Reset, startup and the invariant -/

/-- The state after reset. `PC`, the mode, the stack, pending ticks and the status are R35's; the zeros are the spec's
decision D8 (log 6), the parameters, the font and the fill its simulator values (log 3, 4, 5), the ports the model's
choice (log 1, 22). -/
def Obligations.ResetState : Prop :=
  State.reset.pc = 0x200#16 ∧ State.reset.mode = .running ∧ State.reset.stack = [] ∧
  State.reset.pendingTicks = 0 ∧ State.reset.status = .run ∧ State.reset.buzzer = false ∧
  (∀ r, State.reset.getV r = 0#8) ∧ State.reset.i = 0#16 ∧ State.reset.dt = 0#8 ∧ State.reset.st = 0#8 ∧
  (∀ x y, State.reset.grid.pixel x y = false) ∧
  (∀ a, 0x50 ≤ a → State.reset.mem.read a = 0#8) ∧ State.reset.mem.read 0x23 = 0xF0#8 ∧
  State.reset.params.stackCapacity = none ∧ State.reset.params.vfOrder = .flagLast

/-- A startup with its resources and an image of at most 3584 bytes gives, for every choice of the OPEN parameters, a
running block: `PC` at 0x200, mode Running, an empty stack, no pending tick, the image at 0x200, the font at 0x000, and
the fill elsewhere; the machine's invariant holds. -/
def Obligations.StartupLoadsTheImage : Prop :=
  ∀ (p : Params) (font : Vector Byte 80) (fill : Nat → Byte) (image : List Byte), image.length ≤ 3584 →
    let t := State.startup p font fill { display := true, audio := true, image := some image }
    t.status = .run ∧ t.pc = 0x200#16 ∧ t.mode = .running ∧ t.stack = [] ∧ t.pendingTicks = 0 ∧ t.params = p ∧
    (∀ k (h : k < 80), t.mem.read k = font[k]) ∧
    (∀ k (h : k < image.length), t.mem.read (0x200 + k) = image[k]) ∧
    (∀ a, 80 ≤ a → a < 4096 → ¬(0x200 ≤ a ∧ a < 0x200 + image.length) → t.mem.read a = fill a) ∧
    (1 ≤ p.cpuHz → t.Inv)

/-- A startup that lacks the display, the audio device or the file, or whose image is longer than 3584 bytes, ends in
LoadFailure, code 6, and no cycle runs. That too long an image fails is the spec's decision D19. -/
def Obligations.FailedStartupRunsNoCycle : Prop :=
  ∀ (p : Params) (font : Vector Byte 80) (fill : Nat → Byte) (inp : StartupInputs),
    (inp.display = false ∨ inp.audio = false ∨ inp.image = none ∨ ∃ b, inp.image = some b ∧ 3584 < b.length) →
    ∃ reason, (State.startup p font fill inp).status = .faulted (.loadFailure reason) ∧
      (FaultRecord.loadFailure reason).code = 6 ∧ step (State.startup p font fill inp) = .fault .runEnded

/-- The invariant holds at reset. -/
def Obligations.ResetMeetsTheInvariant : Prop := State.reset.Inv

/-- Every step keeps the invariant: memory stays canonical, the stack within its capacity, the buzzer shows `ST > 1`,
`frame_out` shows the grid, the shutdown signal shows a clean stop, and the parameters stay legal. -/
def Obligations.EveryStepKeepsTheInvariant : Prop :=
  ∀ s t : State, s.Inv → step s = .next t → t.Inv

/-! ### Whole-machine rules -/

/-- Only FX33 and FX55 change memory. -/
def Obligations.OnlyFx33AndFx55ChangeMemory : Prop :=
  ∀ (s t : State), step s = .next t → (∃ a, t.mem.read a ≠ s.mem.read a) →
    ∃ x, s.runs (.ldB x) ∨ s.runs (.ldIVx x)

/-- Only 00E0 and DXYN change the grid. -/
def Obligations.OnlyClsAndDrwChangeTheGrid : Prop :=
  ∀ s t : State, step s = .next t → t.grid ≠ s.grid → s.runs .cls ∨ ∃ x y n, s.runs (.drw x y n)

/-- Only 2NNN and 00EE change the stack, each by one entry at the top. -/
def Obligations.OnlyCallAndRetChangeTheStack : Prop :=
  ∀ s t : State, step s = .next t → t.stack ≠ s.stack →
    (∃ nnn, s.runs (.call nnn) ∧ t.stack = s.stack ++ [s.pc + 2#16]) ∨
    (s.runs .ret ∧ ∃ w, s.stack = t.stack ++ [w] ∧ t.pc = w)

/-- Only FX0A enters the key wait, and only a waiting cycle with a key down leaves it. -/
def Obligations.OnlyTheKeyWaitChangesTheMode : Prop :=
  ∀ s t : State, step s = .next t → t.mode ≠ s.mode →
    (∃ x, s.runs (.ldVxK x) ∧ t.mode = .waitingForKey x) ∨
    (s.cycleBegins ∧ t.mode = .running ∧ (∃ r, s.mode = .waitingForKey r) ∧ s.ports.keys ≠ 0#16)

/-- The timers change only by FX15, by FX18 and by a consumed tick, which takes one off a timer above zero. -/
def Obligations.TimersChangeOnlyByWritesAndTicks : Prop :=
  ∀ s t : State, step s = .next t →
    (t.dt ≠ s.dt → (∃ x, s.runs (.ldDtVx x)) ∨
      (0 < s.pendingTicks ∧ t.pendingTicks + 1 = s.pendingTicks ∧ t.dt.toNat + 1 = s.dt.toNat)) ∧
    (t.st ≠ s.st → (∃ x, s.runs (.ldStVx x)) ∨
      (0 < s.pendingTicks ∧ t.pendingTicks + 1 = s.pendingTicks ∧ t.st.toNat + 1 = s.st.toNat))

/-- No instruction reads `ST`, and only FX07 reads `DT`: with another value there, the instruction does the same but for
that timer. -/
def Obligations.TimersAreReadOnlyByFx07 : Prop :=
  ∀ (i : Instr) (s : State) (b : Byte),
    (∀ t, exec i s = .next t → ∃ c, exec i { s with st := b } = .next { t with st := c }) ∧
    (∀ f, exec i s = .fault f → exec i { s with st := b } = .fault f) ∧
    ((∀ x, i ≠ .ldVxDt x) →
      (∀ t, exec i s = .next t → ∃ c, exec i { s with dt := b } = .next { t with dt := c }) ∧
      (∀ f, exec i s = .fault f → exec i { s with dt := b } = .fault f))

/-- A program cannot read the grid but through DXYN's collision, and cannot read pending ticks or the buzzer at all. -/
def Obligations.GridIsReadOnlyByDrw : Prop :=
  ∀ (i : Instr) (s : State) (g : Grid) (n : Nat) (b : Bool),
    ((∀ x y k, i ≠ .drw x y k) →
      (∀ t, exec i s = .next t → ∃ g', exec i { s with grid := g } = .next { t with grid := g' }) ∧
      (∀ f, exec i s = .fault f → exec i { s with grid := g } = .fault f)) ∧
    (∀ t, exec i s = .next t →
      exec i { s with pendingTicks := n, buzzer := b } = .next { t with pendingTicks := n, buzzer := b }) ∧
    (∀ f, exec i s = .fault f → exec i { s with pendingTicks := n, buzzer := b } = .fault f)

/-- Each instruction can raise only its own fault, and only where the spec says: 00EE on an empty stack, 2NNN at the
capacity, DXYN, FX33, FX55 and FX65 out of memory, EX9E and EXA1 on a key number above 15. No instruction is refused. -/
def Obligations.EachInstructionRaisesOnlyItsOwnFault : Prop :=
  ∀ (i : Instr) (s : State),
    (∀ r, exec i s ≠ .refused r) ∧
    ∀ f, exec i s = .fault f →
      (i = .ret ∧ s.stack = [] ∧ f = .raised .stackUnderflow) ∨
      (∃ nnn, i = .call nnn ∧ s.params.stackCapacity = some s.stack.length ∧
        f = .raised (.stackOverflow s.stack.length)) ∨
      (∃ x, (i = .skp x ∨ i = .sknp x) ∧ 15 < (s.getV x).toNat ∧ f = .raised (.keyRange (s.getV x))) ∨
      (f = .raised (.memoryRange (max s.i.toNat 4096)) ∧
        ((∃ x y n, i = .drw x y n ∧ 0 < n.toNat ∧ 4096 < s.i.toNat + n.toNat) ∨
         (∃ x, i = .ldB x ∧ 4096 < s.i.toNat + 3) ∨
         (∃ x, (i = .ldIVx x ∨ i = .ldVxI x) ∧ 4096 < s.i.toNat + (x.toNat + 1))))

/-- No step changes the parameters. -/
def Obligations.NoStepChangesTheParameters : Prop := ∀ s t : State, step s = .next t → t.params = s.params

/-! ### Families 0 to 5 -/

/-- 00E0 turns every pixel off and changes nothing else. -/
def Obligations.ClsTurnsEveryPixelOff : Prop :=
  decodeWord 0x00E0#16 = .ok .cls ∧
  ∀ s : State, ∃ t, exec .cls s = .next t ∧ (∀ x y, t.grid.pixel x y = false) ∧ t = { s with grid := t.grid }

/-- 00EE sets `PC` to the top entry and removes it, and fails on an empty stack. -/
def Obligations.RetReturnsToTheTopEntry : Prop :=
  decodeWord 0x00EE#16 = .ok .ret ∧
  ∀ s : State,
    (∀ l w, s.stack = l ++ [w] →
      ∃ t, exec .ret s = .next t ∧ t.pc = w ∧ t.stack = l ∧ t = { s with pc := t.pc, stack := t.stack }) ∧
    (s.stack = [] → exec .ret s = .fault (.raised .stackUnderflow))

/-- 1NNN sets `PC` to NNN. -/
def Obligations.JpJumpsToTheAddress : Prop :=
  ∀ nnn : Addr12, decodeWord (BitVec.ofNat 16 (0x1000 + nnn.toNat)) = .ok (.jp nnn) ∧
    ∀ s : State, ∃ t, exec (.jp nnn) s = .next t ∧ t.pc.toNat = nnn.toNat ∧ t = { s with pc := t.pc }

/-- 2NNN pushes `PC`, the address after the call, and jumps; it fails when the stack holds STACK_CAPACITY entries. -/
def Obligations.CallPushesTheReturnAddress : Prop :=
  ∀ nnn : Addr12, decodeWord (BitVec.ofNat 16 (0x2000 + nnn.toNat)) = .ok (.call nnn) ∧
    ∀ s : State,
      (s.params.stackCapacity ≠ some s.stack.length →
        ∃ t, exec (.call nnn) s = .next t ∧ t.stack = s.stack ++ [s.pc] ∧ t.pc.toNat = nnn.toNat ∧
          t = { s with pc := t.pc, stack := t.stack }) ∧
      (s.params.stackCapacity = some s.stack.length →
        exec (.call nnn) s = .fault (.raised (.stackOverflow s.stack.length)))

/-- A call and then a return: after the two cycles `PC` is the address after the call and the stack is what it was
(90_conflicts.md C4). -/
def Obligations.ReturnGoesToTheWordAfterTheCall : Prop :=
  ∀ (s t u : State) (nnn : Addr12), s.runs (.call nnn) → step s = .next t → t.status = .run → t.runs .ret →
    step t = .next u → u.pc = s.pc + 2#16 ∧ u.stack = s.stack ∧ u.status = .run

/-- 3XNN and 4XNN skip the next word when VX equals, or differs from, NN; nothing else changes. -/
def Obligations.SkipOnImmediate : Prop :=
  ∀ (x : RegNum) (nn : Byte),
    decodeWord (BitVec.ofNat 16 (0x3000 + x.toNat * 256 + nn.toNat)) = .ok (.seImm x nn) ∧
    decodeWord (BitVec.ofNat 16 (0x4000 + x.toNat * 256 + nn.toNat)) = .ok (.sneImm x nn) ∧
    ∀ s : State,
      (∃ t, exec (.seImm x nn) s = .next t ∧
        t.pc.toNat = (if (s.getV x).toNat = nn.toNat then (s.pc.toNat + 2) % 65536 else s.pc.toNat) ∧
        t = { s with pc := t.pc }) ∧
      (∃ t, exec (.sneImm x nn) s = .next t ∧
        t.pc.toNat = (if (s.getV x).toNat = nn.toNat then s.pc.toNat else (s.pc.toNat + 2) % 65536) ∧
        t = { s with pc := t.pc })

/-- 5XY0 and 9XY0 skip the next word when VX equals, or differs from, VY; nothing else changes; a low digit other than 0 is
illegal. -/
def Obligations.SkipOnRegisters : Prop :=
  ∀ x y : RegNum,
    decodeWord (BitVec.ofNat 16 (0x5000 + x.toNat * 256 + y.toNat * 16)) = .ok (.seReg x y) ∧
    decodeWord (BitVec.ofNat 16 (0x9000 + x.toNat * 256 + y.toNat * 16)) = .ok (.sneReg x y) ∧
    (∀ n : Nat, 0 < n → n < 16 → ∀ w : Word,
      (w = BitVec.ofNat 16 (0x5000 + x.toNat * 256 + y.toNat * 16 + n) ∨
        w = BitVec.ofNat 16 (0x9000 + x.toNat * 256 + y.toNat * 16 + n)) →
      decodeWord w = .error (.illegalInstruction w)) ∧
    ∀ s : State,
      (∃ t, exec (.seReg x y) s = .next t ∧
        t.pc.toNat = (if (s.getV x).toNat = (s.getV y).toNat then (s.pc.toNat + 2) % 65536 else s.pc.toNat) ∧
        t = { s with pc := t.pc }) ∧
      (∃ t, exec (.sneReg x y) s = .next t ∧
        t.pc.toNat = (if (s.getV x).toNat = (s.getV y).toNat then s.pc.toNat else (s.pc.toNat + 2) % 65536) ∧
        t = { s with pc := t.pc })

/-! ### Families 6 to 9 -/

/-- 6XNN loads NN, 7XNN adds NN mod 256 with no flag, 8XY0 copies VY; only VX changes (`VF` too only as VX). -/
def Obligations.LoadsAndAddImmediate : Prop :=
  ∀ (x y : RegNum) (nn : Byte),
    decodeWord (BitVec.ofNat 16 (0x6000 + x.toNat * 256 + nn.toNat)) = .ok (.ldImm x nn) ∧
    decodeWord (BitVec.ofNat 16 (0x7000 + x.toNat * 256 + nn.toNat)) = .ok (.addImm x nn) ∧
    decodeWord (BitVec.ofNat 16 (0x8000 + x.toNat * 256 + y.toNat * 16)) = .ok (.ldReg x y) ∧
    ∀ s : State,
      (∃ t, exec (.ldImm x nn) s = .next t ∧ t.getV x = nn ∧ s.regsKept t [x] ∧ t = { s with v := t.v }) ∧
      (∃ t, exec (.addImm x nn) s = .next t ∧
        (t.getV x).toNat = ((s.getV x).toNat + nn.toNat) % 256 ∧ s.regsKept t [x] ∧ t = { s with v := t.v }) ∧
      (∃ t, exec (.ldReg x y) s = .next t ∧ t.getV x = s.getV y ∧ s.regsKept t [x] ∧ t = { s with v := t.v })

/-- 8XY1, 8XY2 and 8XY3 combine VX and VY bit by bit; only VX changes. That no flag changes is the spec's decision D7. -/
def Obligations.LogicCombinesBits : Prop :=
  ∀ x y : RegNum,
    decodeWord (BitVec.ofNat 16 (0x8001 + x.toNat * 256 + y.toNat * 16)) = .ok (.orReg x y) ∧
    decodeWord (BitVec.ofNat 16 (0x8002 + x.toNat * 256 + y.toNat * 16)) = .ok (.andReg x y) ∧
    decodeWord (BitVec.ofNat 16 (0x8003 + x.toNat * 256 + y.toNat * 16)) = .ok (.xorReg x y) ∧
    ∀ s : State,
      (∃ t, exec (.orReg x y) s = .next t ∧ s.regsKept t [x] ∧ t = { s with v := t.v } ∧
        ∀ k : Fin 8, (t.getV x)[k] = ((s.getV x)[k] || (s.getV y)[k])) ∧
      (∃ t, exec (.andReg x y) s = .next t ∧ s.regsKept t [x] ∧ t = { s with v := t.v } ∧
        ∀ k : Fin 8, (t.getV x)[k] = ((s.getV x)[k] && (s.getV y)[k])) ∧
      (∃ t, exec (.xorReg x y) s = .next t ∧ s.regsKept t [x] ∧ t = { s with v := t.v } ∧
        ∀ k : Fin 8, (t.getV x)[k] = ((s.getV x)[k] ^^ (s.getV y)[k]))

/-- 8XY4: the sum mod 256, and the flag is 1 iff the sum is 256 or more. With X = F see `resultAndFlag`. -/
def Obligations.AddSetsCarry : Prop :=
  ∀ x y : RegNum, decodeWord (BitVec.ofNat 16 (0x8004 + x.toNat * 256 + y.toNat * 16)) = .ok (.addReg x y) ∧
    ∀ s : State, ∃ t, exec (.addReg x y) s = .next t ∧
      s.resultAndFlag t x (((s.getV x).toNat + (s.getV y).toNat) % 256)
        (if 256 ≤ (s.getV x).toNat + (s.getV y).toNat then 1 else 0)

/-- 8XY5: VX - VY mod 256, and the flag is 1 iff there is no borrow. With X = F see `resultAndFlag`. -/
def Obligations.SubSetsNoBorrow : Prop :=
  ∀ x y : RegNum, decodeWord (BitVec.ofNat 16 (0x8005 + x.toNat * 256 + y.toNat * 16)) = .ok (.sub x y) ∧
    ∀ s : State, ∃ t, exec (.sub x y) s = .next t ∧
      s.resultAndFlag t x (((s.getV x).toNat + 256 - (s.getV y).toNat) % 256)
        (if (s.getV y).toNat ≤ (s.getV x).toNat then 1 else 0)

/-- 8XY7: VY - VX mod 256, and the flag is 1 iff there is no borrow. With X = F see `resultAndFlag`. -/
def Obligations.SubnSetsNoBorrow : Prop :=
  ∀ x y : RegNum, decodeWord (BitVec.ofNat 16 (0x8007 + x.toNat * 256 + y.toNat * 16)) = .ok (.subn x y) ∧
    ∀ s : State, ∃ t, exec (.subn x y) s = .next t ∧
      s.resultAndFlag t x (((s.getV y).toNat + 256 - (s.getV x).toNat) % 256)
        (if (s.getV x).toNat ≤ (s.getV y).toNat then 1 else 0)

/-- 8XY6: VY shifted right by one, and the flag is bit 0 of VY. With X = F see `resultAndFlag`. -/
def Obligations.ShrShiftsVyRight : Prop :=
  ∀ x y : RegNum, decodeWord (BitVec.ofNat 16 (0x8006 + x.toNat * 256 + y.toNat * 16)) = .ok (.shr x y) ∧
    ∀ s : State, ∃ t, exec (.shr x y) s = .next t ∧
      s.resultAndFlag t x ((s.getV y).toNat / 2) ((s.getV y).toNat % 2)

/-- 8XYE: VY shifted left by one mod 256, and the flag is bit 7 of VY. With X = F see `resultAndFlag`. -/
def Obligations.ShlShiftsVyLeft : Prop :=
  ∀ x y : RegNum, decodeWord (BitVec.ofNat 16 (0x800E + x.toNat * 256 + y.toNat * 16)) = .ok (.shl x y) ∧
    ∀ s : State, ∃ t, exec (.shl x y) s = .next t ∧
      s.resultAndFlag t x ((s.getV y).toNat * 2 % 256) ((s.getV y).toNat / 128)

/-! ### Families A to D -/

/-- ANNN sets `I` to NNN; BNNN sets `PC` to NNN + V0, whatever bits 11..8 are. -/
def Obligations.LoadIndexAndIndexedJump : Prop :=
  ∀ nnn : Addr12,
    decodeWord (BitVec.ofNat 16 (0xA000 + nnn.toNat)) = .ok (.ldI nnn) ∧
    decodeWord (BitVec.ofNat 16 (0xB000 + nnn.toNat)) = .ok (.jpV0 nnn) ∧
    ∀ s : State,
      (∃ t, exec (.ldI nnn) s = .next t ∧ t.i.toNat = nnn.toNat ∧ t = { s with i := t.i }) ∧
      (∃ t, exec (.jpV0 nnn) s = .next t ∧ t.pc.toNat = nnn.toNat + (s.getV 0#4).toNat ∧ t = { s with pc := t.pc })

/-- CXNN puts a draw masked with NN in VX; the draw is the next byte the host has supplied, and else some byte; one draw is
taken whatever NN is. How the draws are supplied is the model's (log 2). -/
def Obligations.RndMasksOneDraw : Prop :=
  ∀ (x : RegNum) (nn : Byte),
    decodeWord (BitVec.ofNat 16 (0xC000 + x.toNat * 256 + nn.toNat)) = .ok (.rnd x nn) ∧
    ∀ s : State,
      (∀ d ds, s.env.draws = d :: ds →
        ∃ t, exec (.rnd x nn) s = .next t ∧ t.getV x = d &&& nn ∧ s.regsKept t [x] ∧
          t = { s with v := t.v, env := { s.env with draws := ds } }) ∧
      (s.env.draws = [] →
        ∃ t, exec (.rnd x nn) s = .next t ∧ (∃ d : Byte, t.getV x = d &&& nn) ∧ s.regsKept t [x] ∧
          t = { s with v := t.v, env := { s.env with drawCount := s.env.drawCount + 1 } })

/-- DXYN flips exactly the pixels that a set bit of the sprite falls on, origin wrapped and pixels clipped; `VF` is 1 iff
one of them was on; nothing else changes. Out of memory it faults. The fault is the spec's decision D2, and that the
origin is read before `VF` is written its decision D6. -/
def Obligations.DrwFlipsTheCoveredPixels : Prop :=
  ∀ (x y : RegNum) (n : RowCount),
    decodeWord (BitVec.ofNat 16 (0xD000 + x.toNat * 256 + y.toNat * 16 + n.toNat)) = .ok (.drw x y n) ∧
    ∀ s : State,
      (n.toNat = 0 ∨ s.i.toNat + n.toNat ≤ 4096 →
        ∃ t, exec (.drw x y n) s = .next t ∧
          (∀ px py, t.grid.pixel px py = (s.grid.pixel px py ^^
            s.spriteCovers ((s.getV x).toNat % 64) ((s.getV y).toNat % 32) n.toNat px.val py.val)) ∧
          ((t.getV vfNum = 1#8 ∧ ∃ px py, s.grid.pixel px py = true ∧ t.grid.pixel px py = false) ∨
           (t.getV vfNum = 0#8 ∧ ∀ px py, s.grid.pixel px py = true → t.grid.pixel px py = true)) ∧
          s.regsKept t [vfNum] ∧ t = { s with v := t.v, grid := t.grid }) ∧
      (0 < n.toNat → 4096 < s.i.toNat + n.toNat →
        exec (.drw x y n) s = .fault (.raised (.memoryRange (max s.i.toNat 4096))))

/-- Drawing the same sprite twice at the same origin restores the grid; the second draw reports a collision iff the first
turned a pixel on, which on a clear grid is iff a set bit falls inside it. -/
def Obligations.DrawingTwiceRestoresTheGrid : Prop :=
  ∀ (x y : RegNum) (n : RowCount) (s t u : State), x ≠ vfNum → y ≠ vfNum →
    exec (.drw x y n) s = .next t → exec (.drw x y n) t = .next u →
    u.grid = s.grid ∧
    (u.getV vfNum = 1#8 ↔ ∃ px py, s.grid.pixel px py = false ∧ t.grid.pixel px py = true) ∧
    (s.grid = Grid.off → (u.getV vfNum = 1#8 ↔ ∃ (px : Fin 64) (py : Fin 32),
      s.spriteCovers ((s.getV x).toNat % 64) ((s.getV y).toNat % 32) n.toNat px.val py.val = true))

/-! ### Families E and F -/

/-- EX9E and EXA1 skip when key VX is down, or up; a key number above 15 faults, the spec's decision D3. -/
def Obligations.SkipOnKey : Prop :=
  ∀ x : RegNum,
    decodeWord (BitVec.ofNat 16 (0xE09E + x.toNat * 256)) = .ok (.skp x) ∧
    decodeWord (BitVec.ofNat 16 (0xE0A1 + x.toNat * 256)) = .ok (.sknp x) ∧
    ∀ s : State,
      (∀ k : Fin 16, (s.getV x).toNat = k.val →
        (∃ t, exec (.skp x) s = .next t ∧
          t.pc.toNat = (if s.ports.keys[k] then (s.pc.toNat + 2) % 65536 else s.pc.toNat) ∧ t = { s with pc := t.pc }) ∧
        (∃ t, exec (.sknp x) s = .next t ∧
          t.pc.toNat = (if s.ports.keys[k] then s.pc.toNat else (s.pc.toNat + 2) % 65536) ∧
          t = { s with pc := t.pc })) ∧
      (16 ≤ (s.getV x).toNat →
        exec (.skp x) s = .fault (.raised (.keyRange (s.getV x))) ∧
        exec (.sknp x) s = .fault (.raised (.keyRange (s.getV x))))

/-- FX07 copies `DT` to VX, as it is before this cycle's tick. -/
def Obligations.LdVxDtReadsTheDelayTimer : Prop :=
  ∀ x : RegNum, decodeWord (BitVec.ofNat 16 (0xF007 + x.toNat * 256)) = .ok (.ldVxDt x) ∧
    ∀ s : State,
      (∃ t, exec (.ldVxDt x) s = .next t ∧ t.getV x = s.dt ∧ s.regsKept t [x] ∧ t = { s with v := t.v }) ∧
      (s.runs (.ldVxDt x) → ∃ u, step s = .next u ∧ u.getV x = s.dt)

/-- FX0A enters the wait for its register and writes no register; its cycle still services the timers, and the wait begins
at the next cycle with `PC` past the instruction. -/
def Obligations.LdVxKEntersTheKeyWait : Prop :=
  ∀ x : RegNum, decodeWord (BitVec.ofNat 16 (0xF00A + x.toNat * 256)) = .ok (.ldVxK x) ∧
    ∀ s : State,
      (∃ t, exec (.ldVxK x) s = .next t ∧ t.mode = .waitingForKey x ∧ t = { s with mode := t.mode }) ∧
      (s.runs (.ldVxK x) → ∃ u, step s = .next u ∧ u.mode = .waitingForKey x ∧ u.pc = s.pc + 2#16 ∧ u.v = s.v ∧
        u.pendingTicks = s.pendingTicks - 1)

/-- FX15 and FX18 copy VX to a timer; a tick pending in the same cycle takes one off the new value; the buzzer follows the
sound timer after the tick. -/
def Obligations.TimerWritesMeetTheSameCyclesTick : Prop :=
  ∀ x : RegNum,
    decodeWord (BitVec.ofNat 16 (0xF015 + x.toNat * 256)) = .ok (.ldDtVx x) ∧
    decodeWord (BitVec.ofNat 16 (0xF018 + x.toNat * 256)) = .ok (.ldStVx x) ∧
    ∀ s : State,
      (∃ t, exec (.ldDtVx x) s = .next t ∧ t.dt = s.getV x ∧ t = { s with dt := t.dt }) ∧
      (∃ t, exec (.ldStVx x) s = .next t ∧ t.st = s.getV x ∧ t = { s with st := t.st }) ∧
      (s.runs (.ldDtVx x) → ∃ u, step s = .next u ∧
        u.dt.toNat = (s.getV x).toNat - (if 0 < s.pendingTicks then 1 else 0)) ∧
      (s.runs (.ldStVx x) → ∃ u, step s = .next u ∧
        u.st.toNat = (s.getV x).toNat - (if 0 < s.pendingTicks then 1 else 0) ∧
        u.buzzer = decide (1 < (s.getV x).toNat - (if 0 < s.pendingTicks then 1 else 0)))

/-- FX1E adds VX to `I` mod 65536 and FX29 sets `I` to 5 times VX; nothing else changes. That FX1E leaves `VF` is the
spec's decision D7, that FX29 does not mask VX its decision D26. -/
def Obligations.IndexArithmetic : Prop :=
  ∀ x : RegNum,
    decodeWord (BitVec.ofNat 16 (0xF01E + x.toNat * 256)) = .ok (.addI x) ∧
    decodeWord (BitVec.ofNat 16 (0xF029 + x.toNat * 256)) = .ok (.ldF x) ∧
    ∀ s : State,
      (∃ t, exec (.addI x) s = .next t ∧ t.i.toNat = (s.i.toNat + (s.getV x).toNat) % 65536 ∧
        t = { s with i := t.i }) ∧
      (∃ t, exec (.ldF x) s = .next t ∧ t.i.toNat = (s.getV x).toNat * 5 ∧ t = { s with i := t.i })

/-- FX33 stores the hundreds, tens and ones of VX at `I`, `I + 1` and `I + 2` and changes nothing else; out of memory it
faults. That a store reads back rests on canonical memory, an invariant. -/
def Obligations.LdBStoresTheDecimalDigits : Prop :=
  ∀ x : RegNum, decodeWord (BitVec.ofNat 16 (0xF033 + x.toNat * 256)) = .ok (.ldB x) ∧
    ∀ s : State,
      (s.i.toNat + 2 < 4096 →
        ∃ t, exec (.ldB x) s = .next t ∧ s.memKeptOutside t s.i.toNat 3 ∧ t = { s with mem := t.mem } ∧
          (s.mem.wf = true →
            (t.mem.read s.i.toNat).toNat = (s.getV x).toNat / 100 ∧
            (t.mem.read (s.i.toNat + 1)).toNat = (s.getV x).toNat / 10 % 10 ∧
            (t.mem.read (s.i.toNat + 2)).toNat = (s.getV x).toNat % 10)) ∧
      (4096 ≤ s.i.toNat + 2 → exec (.ldB x) s = .fault (.raised (.memoryRange (max s.i.toNat 4096))))

/-- FX55 stores V0..VX from `I` on and adds X + 1 to `I`; nothing else changes; out of memory it faults. -/
def Obligations.LdIVxStoresTheRegisters : Prop :=
  ∀ x : RegNum, decodeWord (BitVec.ofNat 16 (0xF055 + x.toNat * 256)) = .ok (.ldIVx x) ∧
    ∀ s : State,
      (s.i.toNat + x.toNat < 4096 →
        ∃ t, exec (.ldIVx x) s = .next t ∧ t.i.toNat = s.i.toNat + x.toNat + 1 ∧
          s.memKeptOutside t s.i.toNat (x.toNat + 1) ∧ t = { s with mem := t.mem, i := t.i } ∧
          (s.mem.wf = true → ∀ r : RegNum, r.toNat ≤ x.toNat → t.mem.read (s.i.toNat + r.toNat) = s.getV r)) ∧
      (4096 ≤ s.i.toNat + x.toNat → exec (.ldIVx x) s = .fault (.raised (.memoryRange (max s.i.toNat 4096))))

/-- FX65 loads V0..VX from `I` on and adds X + 1 to `I`; the registers above X and memory are unchanged; out of memory it
faults. -/
def Obligations.LdVxILoadsTheRegisters : Prop :=
  ∀ x : RegNum, decodeWord (BitVec.ofNat 16 (0xF065 + x.toNat * 256)) = .ok (.ldVxI x) ∧
    ∀ s : State,
      (s.i.toNat + x.toNat < 4096 →
        ∃ t, exec (.ldVxI x) s = .next t ∧ t.i.toNat = s.i.toNat + x.toNat + 1 ∧
          (∀ r : RegNum, t.getV r = if r.toNat ≤ x.toNat then s.mem.read (s.i.toNat + r.toNat) else s.getV r) ∧
          t = { s with v := t.v, i := t.i }) ∧
      (4096 ≤ s.i.toNat + x.toNat → exec (.ldVxI x) s = .fault (.raised (.memoryRange (max s.i.toNat 4096))))

/-- FX55 and then FX65 from the same address recovers the registers, whatever V0..VX hold in between, and advances `I` by
X + 1 both times. -/
def Obligations.StoredRegistersLoadBack : Prop :=
  ∀ (x : RegNum) (s t u : State) (between : State), s.mem.wf = true → exec (.ldIVx x) s = .next t →
    between.mem = t.mem → between.i = s.i → exec (.ldVxI x) between = .next u →
    (∀ r : RegNum, r.toNat ≤ x.toNat → u.getV r = s.getV r) ∧ u.i = t.i ∧ t.i.toNat = s.i.toNat + (x.toNat + 1)
end

