-- ==== Sys2Proof/Laws/Display.lean ====
section
/-! SUPPORT. The laws of the grid: a flipped pixel, every other pixel, the clear grid, and what drawing a sprite does to
every pixel and to the collision. -/

namespace Sys2Proof.Machine

theorem Grid.pixel_off (x : Fin Config.displayW) (y : Fin Config.displayH) : Grid.off.pixel x y = false := by
  simp [Grid.off, Grid.pixel]

theorem Grid.pixel_flip (g : Grid) (x x' : Fin Config.displayW) (y y' : Fin Config.displayH) :
    (g.flip x y).pixel x' y' = if x' = x ∧ y' = y then !g.pixel x y else g.pixel x' y' := by
  simp only [Grid.flip, Grid.pixel, Fin.getElem_fin]
  by_cases hy : y' = y
  · subst hy
    by_cases hx : x' = x
    · subst hx; simp
    · have : x.val ≠ x'.val := fun e => hx (Fin.ext e.symm)
      simp [hx, Vector.getElem_set_ne _ _ this]
  · have : y.val ≠ y'.val := fun e => hy (Fin.ext e.symm)
    simp [hy, Vector.getElem_set_ne _ _ this]

/-- Two grids with the same pixels are equal. -/
theorem Grid.ext_pixel (g h : Grid) (e : ∀ x y, g.pixel x y = h.pixel x y) : g = h := by
  cases g with
  | mk gr =>
    cases h with
    | mk hr =>
      congr 1
      apply Vector.ext
      intro y hy
      apply Vector.ext
      intro x hx
      exact e ⟨x, hx⟩ ⟨y, hy⟩

/-- A plotted bit outside the grid is dropped. -/
theorem plot_outside (d : Drawing) (x y : Nat) (h : ¬(x < Config.displayW ∧ y < Config.displayH)) : plot d x y = d := by
  simp only [plot, dif_neg h]

/-- A plotted bit inside the grid flips its pixel and adds a collision if it was on. -/
theorem plot_inside (d : Drawing) (x : Fin Config.displayW) (y : Fin Config.displayH) :
    plot d x.val y.val = (d.1.flip x y, d.2 || d.1.pixel x y) := by
  simp [plot, x.isLt, y.isLt]

/-- The pixels after plotting the set bits of some columns of a row: a pixel is flipped iff a set bit falls on it. -/
theorem plotColumns_pixel (cs : List Nat) (hnd : cs.Nodup) (b : Byte) (x0 y : Nat) (d : Drawing) (px : Fin 64) (py : Fin 32) :
   (cs.foldl (fun d c => if spriteBit b c then plot d (x0 + c) y else d) d).1.pixel px py =
     (d.1.pixel px py ^^ (decide (py.val = y ∧ ∃ c ∈ cs, spriteBit b c = true ∧ px.val = x0 + c))) := by
  induction cs generalizing d with
  | nil => simp
  | cons c cs ih =>
    rw [List.foldl_cons, ih (List.nodup_cons.1 hnd).2]
    have hc := (List.nodup_cons.1 hnd).1
    by_cases hb : spriteBit b c = true
    · simp only [hb, if_true]
      by_cases hin : x0 + c < 64 ∧ y < 32
      · have := plot_inside d ⟨x0 + c, hin.1⟩ ⟨y, hin.2⟩
        simp only at this
        rw [this]
        simp only [Grid.pixel_flip]
        by_cases hp : px.val = x0 + c ∧ py.val = y
        · have e1 : px = ⟨x0 + c, hin.1⟩ := Fin.ext hp.1
          have e2 : py = ⟨y, hin.2⟩ := Fin.ext hp.2
          have hno : ¬ ∃ c' ∈ cs, spriteBit b c' = true ∧ px.val = x0 + c' := by
            rintro ⟨c', hc', _, he⟩
            have : c' = c := by omega
            subst this; exact hc hc'
          simp only [hno, and_false, decide_false]
          have : (py.val = y ∧ ∃ c_1 ∈ c :: cs, spriteBit b c_1 = true ∧ px.val = x0 + c_1) := ⟨hp.2, c, by simp, hb, hp.1⟩
          rw [decide_eq_true this]
          simp [e1, e2]
        · have e : ¬ (px = ⟨x0 + c, hin.1⟩ ∧ py = ⟨y, hin.2⟩) := by
            rintro ⟨rfl, rfl⟩; exact hp ⟨rfl, rfl⟩
          rw [if_neg e]
          congr 1
          apply decide_eq_decide.2
          constructor
          · rintro ⟨h1, c', h2, h3, h4⟩; exact ⟨h1, c', by simp [h2], h3, h4⟩
          · rintro ⟨h1, c', h2, h3, h4⟩
            refine ⟨h1, c', ?_, h3, h4⟩
            simp at h2
            rcases h2 with rfl | h2
            · exact absurd ⟨h4, h1⟩ hp
            · exact h2
      · rw [plot_outside _ _ _ hin]
        congr 1
        apply decide_eq_decide.2
        constructor
        · rintro ⟨h1, c', h2, h3, h4⟩; exact ⟨h1, c', by simp [h2], h3, h4⟩
        · rintro ⟨h1, c', h2, h3, h4⟩
          refine ⟨h1, c', ?_, h3, h4⟩
          simp at h2
          rcases h2 with rfl | h2
          · exact absurd ⟨by have := px.isLt; omega, by have := py.isLt; omega⟩ hin
          · exact h2
    · simp [hb]

/-- The pixels after a row of a sprite. -/
theorem drawRow_pixel (x0 y : Nat) (b : Byte) (d : Drawing) (px : Fin 64) (py : Fin 32) :
   (drawRow x0 y b d).1.pixel px py = (d.1.pixel px py ^^ (decide (py.val = y) && decide (x0 ≤ px.val) && decide (px.val < x0 + 8) && b.getLsbD (7 - (px.val - x0)))) := by
  unfold drawRow
  rw [plotColumns_pixel _ List.nodup_range]
  congr 1
  rw [Bool.eq_iff_iff]
  simp only [decide_eq_true_eq, Bool.and_eq_true, List.mem_range]
  constructor
  · rintro ⟨h1, c, h2, h3, h4⟩
    refine ⟨⟨⟨h1, by omega⟩, by omega⟩, ?_⟩
    have : px.val - x0 = c := by omega
    rw [this]; exact h3
  · rintro ⟨⟨⟨h1, h2⟩, h3⟩, h4⟩
    exact ⟨h1, px.val - x0, by omega, h4, by omega⟩

/-- The pixels after the rows of a sprite whose bytes stand in memory from `a` on: exactly the covered ones are flipped
(spec/43_family_A_to_D.md R106, R107, R108). -/
theorem drawRows_pixel (m : Memory) (a : Nat) (n : Nat) (x0 y : Nat) (d : Drawing) (px : Fin 64) (py : Fin 32) :
   (drawRows x0 y (m.readList a n) d).1.pixel px py = (d.1.pixel px py ^^ (decide (y ≤ py.val) && decide (py.val < y + n) && decide (x0 ≤ px.val) && decide (px.val < x0 + 8) && (m.read (a + (py.val - y))).getLsbD (7 - (px.val - x0)))) := by
  induction n generalizing a y d with
  | zero =>
    have : (decide (y ≤ py.val) && decide (py.val < y + 0)) = false := by
      rw [Bool.eq_false_iff]; simp only [Bool.and_eq_true, decide_eq_true_eq, ne_eq]; omega
    rw [this]
    simp [Memory.readList, drawRows]
  | succ n ih =>
    simp only [Memory.readList, drawRows]
    rw [ih, drawRow_pixel]
    by_cases hy : py.val = y
    · have h1 : ¬ (y + 1 ≤ y) := by omega
      simp [hy, h1]
    · by_cases hy2 : y + 1 ≤ py.val
      · have h1 : y ≤ py.val := by omega
        have h3 : a + 1 + (py.val - (y+1)) = a + (py.val - y) := by omega
        simp [hy, hy2, h1, h3, Nat.add_assoc, Nat.add_comm 1 n]
      · have h1 : ¬ y ≤ py.val := by omega
        simp [hy, hy2, h1]

/-- The collision after plotting some columns: it was there before, or a pixel went from on to off. -/
theorem plotColumns_hit (cs : List Nat) (hnd : cs.Nodup) (b : Byte) (x0 y : Nat) (d : Drawing)  :
   (cs.foldl (fun d c => if spriteBit b c then plot d (x0 + c) y else d) d).2 = true ↔
     (d.2 = true ∨ ∃ (px : Fin 64) (py : Fin 32), d.1.pixel px py = true ∧ (cs.foldl (fun d c => if spriteBit b c then plot d (x0 + c) y else d) d).1.pixel px py = false) := by
  induction cs generalizing d with
  | nil => simp
  | cons c cs ih =>
    have hc := (List.nodup_cons.1 hnd).1
    have hn := (List.nodup_cons.1 hnd).2
    rw [List.foldl_cons, ih hn]
    by_cases hb : spriteBit b c = true
    · simp only [hb, if_true]
      by_cases hin : x0 + c < 64 ∧ y < 32
      · have := plot_inside d ⟨x0 + c, hin.1⟩ ⟨y, hin.2⟩
        simp only at this
        rw [this]
        have key := fun (px : Fin 64) (py : Fin 32) (e : Drawing) => plotColumns_pixel cs hn b x0 y e px py
        have hno : ∀ (px : Fin 64) , px.val = x0 + c → ¬ ∃ c' ∈ cs, spriteBit b c' = true ∧ px.val = x0 + c' := by
          rintro px hp ⟨c', hc', _, he⟩
          have : c' = c := by omega
          subst this; exact hc hc'
        simp only [key, Grid.pixel_flip, Bool.or_eq_true]
        constructor
        · rintro ((h | h) | ⟨px, py, h1, h2⟩)
          · exact .inl h
          · refine .inr ⟨_, _, h, ?_⟩
            have := hno ⟨x0 + c, hin.1⟩ rfl
            rw [decide_eq_false (fun hh => this hh.2)]
            simp [h]
          · by_cases e : px = ⟨x0 + c, hin.1⟩ ∧ py = ⟨y, hin.2⟩
            · obtain ⟨rfl, rfl⟩ := e
              have := hno ⟨x0 + c, hin.1⟩ rfl
              exfalso
              rw [h1] at h2
              simp only [this, and_false, decide_false] at h2
              cases h2
            · rw [if_neg e] at h1 h2
              exact .inr ⟨px, py, h1, by rw [if_neg e]; exact h2⟩
        · rintro (h | ⟨px, py, h1, h2⟩)
          · exact .inl (.inl h)
          · by_cases e : px = ⟨x0 + c, hin.1⟩ ∧ py = ⟨y, hin.2⟩
            · obtain ⟨rfl, rfl⟩ := e
              exact .inl (.inr h1)
            · rw [if_neg e] at h2
              exact .inr ⟨px, py, by rw [if_neg e]; exact h1, by rw [if_neg e]; exact h2⟩
      · rw [plot_outside _ _ _ hin]
    · simp [hb]

/-- The collision after a row of a sprite. -/
theorem drawRow_hit (x0 y : Nat) (b : Byte) (d : Drawing) :
    (drawRow x0 y b d).2 = true ↔
      (d.2 = true ∨ ∃ px py, d.1.pixel px py = true ∧ (drawRow x0 y b d).1.pixel px py = false) :=
  plotColumns_hit _ List.nodup_range b x0 y d

/-- A row of a sprite leaves the pixels of other rows alone. -/
theorem drawRow_pixel_other (x0 y : Nat) (b : Byte) (d : Drawing) (px : Fin 64) (py : Fin 32) (h : py.val ≠ y) :
    (drawRow x0 y b d).1.pixel px py = d.1.pixel px py := by
  simp [drawRow_pixel, h]

/-- The rows of a sprite leave the pixels above them alone. -/
theorem drawRows_pixel_above (x0 y : Nat) (bs : List Byte) (d : Drawing) (px : Fin 64) (py : Fin 32)
    (h : py.val < y) : (drawRows x0 y bs d).1.pixel px py = d.1.pixel px py := by
  induction bs generalizing y d with
  | nil => rfl
  | cons b bs ih =>
    rw [drawRows, ih (y + 1) _ (by omega), drawRow_pixel_other _ _ _ _ _ _ (by omega)]

/-- The collision after the rows of a sprite: it was there before, or a pixel went from on to off
(spec/43_family_A_to_D.md R106). -/
theorem drawRows_hit (x0 y : Nat) (bs : List Byte) (d : Drawing) :
    (drawRows x0 y bs d).2 = true ↔
      (d.2 = true ∨ ∃ px py, d.1.pixel px py = true ∧ (drawRows x0 y bs d).1.pixel px py = false) := by
  induction bs generalizing y d with
  | nil => simp [drawRows]
  | cons b bs ih =>
    rw [drawRows, ih, drawRow_hit]
    constructor
    · rintro ((h | ⟨px, py, h1, h2⟩) | ⟨px, py, h1, h2⟩)
      · exact .inl h
      · have hy : py.val = y := by
          by_contra hne
          rw [drawRow_pixel_other _ _ _ _ _ _ hne, h1] at h2
          cases h2
        exact .inr ⟨px, py, h1, by rw [drawRows_pixel_above _ _ _ _ _ _ (by omega)]; exact h2⟩
      · by_cases hy : py.val = y
        · rw [drawRows_pixel_above _ _ _ _ _ _ (by omega), h1] at h2
          cases h2
        · exact .inr ⟨px, py, by rw [drawRow_pixel_other _ _ _ _ _ _ hy] at h1; exact h1, h2⟩
    · rintro (h | ⟨px, py, h1, h2⟩)
      · exact .inl (.inl h)
      · by_cases hy : py.val = y
        · exact .inl (.inr ⟨px, py, h1, by rw [drawRows_pixel_above _ _ _ _ _ _ (by omega)] at h2; exact h2⟩)
        · exact .inr ⟨px, py, by rw [drawRow_pixel_other _ _ _ _ _ _ hy]; exact h1, h2⟩

end Sys2Proof.Machine
end

