-- ==== Sys2Proof/Laws/Memory.lean ====
section
/-! SUPPORT. The laws of memory: a read after a write, what a write leaves alone, and that every memory operation keeps
the canonical form. -/

namespace Sys2Proof.Machine

/-- A write leaves the reads of every other address alone. -/
theorem Memory.read_write_other (m : Memory) (a a' : Nat) (b : Byte) (h : a' ≠ a) :
    (m.write a b).read a' = m.read a' := by
  have h' : a ≠ a' := fun e => h e.symm
  induction m with
  | nil =>
    simp only [Memory.write]
    split <;> simp [Memory.read, h']
  | cons kc m ih =>
    obtain ⟨k, c⟩ := kc
    simp only [Memory.write]
    split
    · split <;> simp [Memory.read, h']
    · split
      · next hk =>
        subst hk
        split <;> simp [Memory.read, h']
      · simp only [Memory.read, ih]

/-- Below the first address of a canonical list, memory reads as unlisted. -/
theorem Memory.read_below (m : Memory) (lo a : Nat) (hwf : Memory.wfFrom lo m = true) (h : a < lo) :
    m.read a = Memory.unlisted a := by
  induction m generalizing lo with
  | nil => rfl
  | cons kc m ih =>
    obtain ⟨k, c⟩ := kc
    simp only [Memory.wfFrom, Bool.and_eq_true, decide_eq_true_eq] at hwf
    have hk : k ≠ a := by omega
    simp only [Memory.read, if_neg hk]
    exact ih (k + 1) hwf.2 (by omega)

/-- A read after a write to the same address, from any start of a canonical list. -/
theorem Memory.read_write_same_from (m : Memory) (lo a : Nat) (b : Byte) (hwf : Memory.wfFrom lo m = true) :
    (m.write a b).read a = b := by
  induction m generalizing lo with
  | nil =>
    simp only [Memory.write]
    split
    · next h => simp [Memory.read, h]
    · simp [Memory.read]
  | cons kc m ih =>
    obtain ⟨k, c⟩ := kc
    simp only [Memory.wfFrom, Bool.and_eq_true, decide_eq_true_eq] at hwf
    simp only [Memory.write]
    split
    · next hlt =>
      split
      · next hb =>
        have hk : k ≠ a := by omega
        simp only [Memory.read, if_neg hk]
        rw [Memory.read_below m (k + 1) a hwf.2 (by omega), hb]
      · simp [Memory.read]
    · split
      · next hk =>
        subst hk
        split
        · next hb => rw [Memory.read_below m (a + 1) a hwf.2 (by omega), hb]
        · simp [Memory.read]
      · next hk =>
        have hk' : k ≠ a := fun e => hk e.symm
        simp only [Memory.read, if_neg hk']
        exact ih (k + 1) hwf.2

/-- A read after a write to the same address gives the byte written. -/
theorem Memory.read_write_same (m : Memory) (a : Nat) (b : Byte) (hwf : m.wf = true) : (m.write a b).read a = b :=
  Memory.read_write_same_from m 0 a b hwf

/-- A canonical list from `lo` on is one from any lower address on. -/
theorem Memory.wfFrom_mono (m : Memory) (lo lo' : Nat) (h : lo' ≤ lo) (hwf : Memory.wfFrom lo m = true) :
    Memory.wfFrom lo' m = true := by
  cases m with
  | nil => rfl
  | cons kc m =>
    obtain ⟨k, c⟩ := kc
    simp only [Memory.wfFrom, Bool.and_eq_true, decide_eq_true_eq] at hwf ⊢
    exact ⟨⟨⟨by omega, hwf.1.1.2⟩, hwf.1.2⟩, hwf.2⟩

/-- A write at an address from `lo` on keeps the canonical form from `lo` on. -/
theorem Memory.wfFrom_write (m : Memory) (lo a : Nat) (b : Byte) (hlo : lo ≤ a) (ha : a < Config.memSize)
    (hwf : Memory.wfFrom lo m = true) : Memory.wfFrom lo (m.write a b) = true := by
  induction m generalizing lo with
  | nil =>
    simp only [Memory.write]
    split
    · rfl
    · next hb => simp [Memory.wfFrom, hlo, ha, hb]
  | cons kc m ih =>
    obtain ⟨k, c⟩ := kc
    have hwf' := hwf
    simp only [Memory.wfFrom, Bool.and_eq_true, decide_eq_true_eq] at hwf
    obtain ⟨⟨⟨hk, hks⟩, hc⟩, hm⟩ := hwf
    simp only [Memory.write]
    split
    · next hlt =>
      split
      · exact hwf'
      · next hb =>
        have hak : a + 1 ≤ k := hlt
        simp [Memory.wfFrom, hlo, ha, hb, hak, hks, hc, hm]
    · split
      · next hak =>
        subst hak
        split
        · exact Memory.wfFrom_mono m (a + 1) lo (by omega) hm
        · next hb => simp [Memory.wfFrom, hlo, ha, hb, hm]
      · next hlt hak =>
        have := ih (k + 1) (by omega) hm
        simp [Memory.wfFrom, hk, hks, hc, this]

/-- A write inside the address space keeps the canonical form. -/
theorem Memory.wf_write (m : Memory) (a : Nat) (b : Byte) (ha : a < Config.memSize) (hwf : m.wf = true) :
    (m.write a b).wf = true :=
  Memory.wfFrom_write m 0 a b (Nat.zero_le a) ha hwf

/-- A store of consecutive bytes inside the address space keeps the canonical form. -/
theorem Memory.wf_writeList (m : Memory) (a : Nat) (bs : List Byte) (ha : a + bs.length ≤ Config.memSize)
    (hwf : m.wf = true) : (m.writeList a bs).wf = true := by
  induction bs generalizing m a with
  | nil => exact hwf
  | cons b bs ih =>
    simp only [List.length_cons] at ha
    exact ih (m.write a b) (a + 1) (by omega) (m.wf_write a b (by omega) hwf)

/-- A store of consecutive bytes leaves the reads outside them alone. -/
theorem Memory.read_writeList_outside (m : Memory) (a a' : Nat) (bs : List Byte)
    (h : ¬(a ≤ a' ∧ a' < a + bs.length)) : (m.writeList a bs).read a' = m.read a' := by
  induction bs generalizing m a with
  | nil => rfl
  | cons b bs ih =>
    simp only [List.length_cons] at h
    rw [Memory.writeList, ih (m.write a b) (a + 1) (by omega), Memory.read_write_other m a a' b (by omega)]

/-- After a store of consecutive bytes inside the address space, each of them reads back. -/
theorem Memory.read_writeList_inside (m : Memory) (a k : Nat) (bs : List Byte) (hk : k < bs.length)
    (ha : a + bs.length ≤ Config.memSize) (hwf : m.wf = true) : (m.writeList a bs).read (a + k) = bs[k] := by
  induction bs generalizing m a k with
  | nil => exact absurd hk (Nat.not_lt_zero k)
  | cons b bs ih =>
    simp only [List.length_cons] at ha hk
    cases k with
    | zero =>
      rw [Memory.writeList, Memory.read_writeList_outside _ _ _ _ (by omega)]
      exact m.read_write_same a b hwf
    | succ k =>
      have := ih (m.write a b) (a + 1) k (by omega) (by omega) (m.wf_write a b (by omega) hwf)
      rw [Memory.writeList, show a + (k + 1) = a + 1 + k by omega, this]
      rfl

@[simp] theorem Memory.length_readList (m : Memory) (a n : Nat) : (m.readList a n).length = n := by
  induction n generalizing a with
  | zero => rfl
  | succ n ih => simp [Memory.readList, ih]

/-- The bytes of a block read are the reads of its addresses. -/
theorem Memory.getElem_readList (m : Memory) (a n k : Nat) (hk : k < (m.readList a n).length) :
    (m.readList a n)[k] = m.read (a + k) := by
  induction n generalizing a k with
  | zero => exact absurd hk (Nat.not_lt_zero k)
  | succ n ih =>
    cases k with
    | zero => rfl
    | succ k =>
      have hk' : k < (m.readList (a + 1) n).length := by simpa [Memory.readList] using hk
      have := ih (a + 1) k hk'
      simp only [Memory.readList, List.getElem_cons_succ, this]
      congr 1
      omega

/-- The reset memory is canonical. -/
theorem State.reset_mem_wf : State.reset.mem.wf = true := rfl

end Sys2Proof.Machine
end

