-- ==== Sys2Proof/Laws/State.lean ====
section
/-! SUPPORT. One lemma per field per update of the state, each true by rfl, so that no proof unfolds a record update. -/

namespace Sys2Proof.Machine

/-! ### setI -/

@[simp] theorem State.setI_mem (s : State) (w : Word) : (s.setI w).mem = s.mem := rfl
@[simp] theorem State.setI_v (s : State) (w : Word) : (s.setI w).v = s.v := rfl
@[simp] theorem State.setI_i (s : State) (w : Word) : (s.setI w).i = w := rfl
@[simp] theorem State.setI_pc (s : State) (w : Word) : (s.setI w).pc = s.pc := rfl
@[simp] theorem State.setI_stack (s : State) (w : Word) : (s.setI w).stack = s.stack := rfl
@[simp] theorem State.setI_dt (s : State) (w : Word) : (s.setI w).dt = s.dt := rfl
@[simp] theorem State.setI_st (s : State) (w : Word) : (s.setI w).st = s.st := rfl
@[simp] theorem State.setI_grid (s : State) (w : Word) : (s.setI w).grid = s.grid := rfl
@[simp] theorem State.setI_mode (s : State) (w : Word) : (s.setI w).mode = s.mode := rfl
@[simp] theorem State.setI_pendingTicks (s : State) (w : Word) : (s.setI w).pendingTicks = s.pendingTicks := rfl
@[simp] theorem State.setI_buzzer (s : State) (w : Word) : (s.setI w).buzzer = s.buzzer := rfl
@[simp] theorem State.setI_status (s : State) (w : Word) : (s.setI w).status = s.status := rfl
@[simp] theorem State.setI_ports (s : State) (w : Word) : (s.setI w).ports = s.ports := rfl
@[simp] theorem State.setI_env (s : State) (w : Word) : (s.setI w).env = s.env := rfl
@[simp] theorem State.setI_params (s : State) (w : Word) : (s.setI w).params = s.params := rfl
@[simp] theorem State.setI_getV (s : State) (w : Word) (q : RegNum) : (s.setI w).getV q = s.getV q := rfl

/-! ### setPc -/

@[simp] theorem State.setPc_mem (s : State) (w : Word) : (s.setPc w).mem = s.mem := rfl
@[simp] theorem State.setPc_v (s : State) (w : Word) : (s.setPc w).v = s.v := rfl
@[simp] theorem State.setPc_i (s : State) (w : Word) : (s.setPc w).i = s.i := rfl
@[simp] theorem State.setPc_pc (s : State) (w : Word) : (s.setPc w).pc = w := rfl
@[simp] theorem State.setPc_stack (s : State) (w : Word) : (s.setPc w).stack = s.stack := rfl
@[simp] theorem State.setPc_dt (s : State) (w : Word) : (s.setPc w).dt = s.dt := rfl
@[simp] theorem State.setPc_st (s : State) (w : Word) : (s.setPc w).st = s.st := rfl
@[simp] theorem State.setPc_grid (s : State) (w : Word) : (s.setPc w).grid = s.grid := rfl
@[simp] theorem State.setPc_mode (s : State) (w : Word) : (s.setPc w).mode = s.mode := rfl
@[simp] theorem State.setPc_pendingTicks (s : State) (w : Word) : (s.setPc w).pendingTicks = s.pendingTicks := rfl
@[simp] theorem State.setPc_buzzer (s : State) (w : Word) : (s.setPc w).buzzer = s.buzzer := rfl
@[simp] theorem State.setPc_status (s : State) (w : Word) : (s.setPc w).status = s.status := rfl
@[simp] theorem State.setPc_ports (s : State) (w : Word) : (s.setPc w).ports = s.ports := rfl
@[simp] theorem State.setPc_env (s : State) (w : Word) : (s.setPc w).env = s.env := rfl
@[simp] theorem State.setPc_params (s : State) (w : Word) : (s.setPc w).params = s.params := rfl
@[simp] theorem State.setPc_getV (s : State) (w : Word) (q : RegNum) : (s.setPc w).getV q = s.getV q := rfl

/-! ### setStack -/

@[simp] theorem State.setStack_mem (s : State) (l : List Word) : (s.setStack l).mem = s.mem := rfl
@[simp] theorem State.setStack_v (s : State) (l : List Word) : (s.setStack l).v = s.v := rfl
@[simp] theorem State.setStack_i (s : State) (l : List Word) : (s.setStack l).i = s.i := rfl
@[simp] theorem State.setStack_pc (s : State) (l : List Word) : (s.setStack l).pc = s.pc := rfl
@[simp] theorem State.setStack_stack (s : State) (l : List Word) : (s.setStack l).stack = l := rfl
@[simp] theorem State.setStack_dt (s : State) (l : List Word) : (s.setStack l).dt = s.dt := rfl
@[simp] theorem State.setStack_st (s : State) (l : List Word) : (s.setStack l).st = s.st := rfl
@[simp] theorem State.setStack_grid (s : State) (l : List Word) : (s.setStack l).grid = s.grid := rfl
@[simp] theorem State.setStack_mode (s : State) (l : List Word) : (s.setStack l).mode = s.mode := rfl
@[simp] theorem State.setStack_pendingTicks (s : State) (l : List Word) : (s.setStack l).pendingTicks = s.pendingTicks := rfl
@[simp] theorem State.setStack_buzzer (s : State) (l : List Word) : (s.setStack l).buzzer = s.buzzer := rfl
@[simp] theorem State.setStack_status (s : State) (l : List Word) : (s.setStack l).status = s.status := rfl
@[simp] theorem State.setStack_ports (s : State) (l : List Word) : (s.setStack l).ports = s.ports := rfl
@[simp] theorem State.setStack_env (s : State) (l : List Word) : (s.setStack l).env = s.env := rfl
@[simp] theorem State.setStack_params (s : State) (l : List Word) : (s.setStack l).params = s.params := rfl
@[simp] theorem State.setStack_getV (s : State) (l : List Word) (q : RegNum) : (s.setStack l).getV q = s.getV q := rfl

/-! ### setDt -/

@[simp] theorem State.setDt_mem (s : State) (b : Byte) : (s.setDt b).mem = s.mem := rfl
@[simp] theorem State.setDt_v (s : State) (b : Byte) : (s.setDt b).v = s.v := rfl
@[simp] theorem State.setDt_i (s : State) (b : Byte) : (s.setDt b).i = s.i := rfl
@[simp] theorem State.setDt_pc (s : State) (b : Byte) : (s.setDt b).pc = s.pc := rfl
@[simp] theorem State.setDt_stack (s : State) (b : Byte) : (s.setDt b).stack = s.stack := rfl
@[simp] theorem State.setDt_dt (s : State) (b : Byte) : (s.setDt b).dt = b := rfl
@[simp] theorem State.setDt_st (s : State) (b : Byte) : (s.setDt b).st = s.st := rfl
@[simp] theorem State.setDt_grid (s : State) (b : Byte) : (s.setDt b).grid = s.grid := rfl
@[simp] theorem State.setDt_mode (s : State) (b : Byte) : (s.setDt b).mode = s.mode := rfl
@[simp] theorem State.setDt_pendingTicks (s : State) (b : Byte) : (s.setDt b).pendingTicks = s.pendingTicks := rfl
@[simp] theorem State.setDt_buzzer (s : State) (b : Byte) : (s.setDt b).buzzer = s.buzzer := rfl
@[simp] theorem State.setDt_status (s : State) (b : Byte) : (s.setDt b).status = s.status := rfl
@[simp] theorem State.setDt_ports (s : State) (b : Byte) : (s.setDt b).ports = s.ports := rfl
@[simp] theorem State.setDt_env (s : State) (b : Byte) : (s.setDt b).env = s.env := rfl
@[simp] theorem State.setDt_params (s : State) (b : Byte) : (s.setDt b).params = s.params := rfl
@[simp] theorem State.setDt_getV (s : State) (b : Byte) (q : RegNum) : (s.setDt b).getV q = s.getV q := rfl

/-! ### setSt -/

@[simp] theorem State.setSt_mem (s : State) (b : Byte) : (s.setSt b).mem = s.mem := rfl
@[simp] theorem State.setSt_v (s : State) (b : Byte) : (s.setSt b).v = s.v := rfl
@[simp] theorem State.setSt_i (s : State) (b : Byte) : (s.setSt b).i = s.i := rfl
@[simp] theorem State.setSt_pc (s : State) (b : Byte) : (s.setSt b).pc = s.pc := rfl
@[simp] theorem State.setSt_stack (s : State) (b : Byte) : (s.setSt b).stack = s.stack := rfl
@[simp] theorem State.setSt_dt (s : State) (b : Byte) : (s.setSt b).dt = s.dt := rfl
@[simp] theorem State.setSt_st (s : State) (b : Byte) : (s.setSt b).st = b := rfl
@[simp] theorem State.setSt_grid (s : State) (b : Byte) : (s.setSt b).grid = s.grid := rfl
@[simp] theorem State.setSt_mode (s : State) (b : Byte) : (s.setSt b).mode = s.mode := rfl
@[simp] theorem State.setSt_pendingTicks (s : State) (b : Byte) : (s.setSt b).pendingTicks = s.pendingTicks := rfl
@[simp] theorem State.setSt_buzzer (s : State) (b : Byte) : (s.setSt b).buzzer = s.buzzer := rfl
@[simp] theorem State.setSt_status (s : State) (b : Byte) : (s.setSt b).status = s.status := rfl
@[simp] theorem State.setSt_ports (s : State) (b : Byte) : (s.setSt b).ports = s.ports := rfl
@[simp] theorem State.setSt_env (s : State) (b : Byte) : (s.setSt b).env = s.env := rfl
@[simp] theorem State.setSt_params (s : State) (b : Byte) : (s.setSt b).params = s.params := rfl
@[simp] theorem State.setSt_getV (s : State) (b : Byte) (q : RegNum) : (s.setSt b).getV q = s.getV q := rfl

/-! ### setGrid -/

@[simp] theorem State.setGrid_mem (s : State) (g : Grid) : (s.setGrid g).mem = s.mem := rfl
@[simp] theorem State.setGrid_v (s : State) (g : Grid) : (s.setGrid g).v = s.v := rfl
@[simp] theorem State.setGrid_i (s : State) (g : Grid) : (s.setGrid g).i = s.i := rfl
@[simp] theorem State.setGrid_pc (s : State) (g : Grid) : (s.setGrid g).pc = s.pc := rfl
@[simp] theorem State.setGrid_stack (s : State) (g : Grid) : (s.setGrid g).stack = s.stack := rfl
@[simp] theorem State.setGrid_dt (s : State) (g : Grid) : (s.setGrid g).dt = s.dt := rfl
@[simp] theorem State.setGrid_st (s : State) (g : Grid) : (s.setGrid g).st = s.st := rfl
@[simp] theorem State.setGrid_grid (s : State) (g : Grid) : (s.setGrid g).grid = g := rfl
@[simp] theorem State.setGrid_mode (s : State) (g : Grid) : (s.setGrid g).mode = s.mode := rfl
@[simp] theorem State.setGrid_pendingTicks (s : State) (g : Grid) : (s.setGrid g).pendingTicks = s.pendingTicks := rfl
@[simp] theorem State.setGrid_buzzer (s : State) (g : Grid) : (s.setGrid g).buzzer = s.buzzer := rfl
@[simp] theorem State.setGrid_status (s : State) (g : Grid) : (s.setGrid g).status = s.status := rfl
@[simp] theorem State.setGrid_ports (s : State) (g : Grid) : (s.setGrid g).ports = s.ports := rfl
@[simp] theorem State.setGrid_env (s : State) (g : Grid) : (s.setGrid g).env = s.env := rfl
@[simp] theorem State.setGrid_params (s : State) (g : Grid) : (s.setGrid g).params = s.params := rfl
@[simp] theorem State.setGrid_getV (s : State) (g : Grid) (q : RegNum) : (s.setGrid g).getV q = s.getV q := rfl

/-! ### setMem -/

@[simp] theorem State.setMem_mem (s : State) (m : Memory) : (s.setMem m).mem = m := rfl
@[simp] theorem State.setMem_v (s : State) (m : Memory) : (s.setMem m).v = s.v := rfl
@[simp] theorem State.setMem_i (s : State) (m : Memory) : (s.setMem m).i = s.i := rfl
@[simp] theorem State.setMem_pc (s : State) (m : Memory) : (s.setMem m).pc = s.pc := rfl
@[simp] theorem State.setMem_stack (s : State) (m : Memory) : (s.setMem m).stack = s.stack := rfl
@[simp] theorem State.setMem_dt (s : State) (m : Memory) : (s.setMem m).dt = s.dt := rfl
@[simp] theorem State.setMem_st (s : State) (m : Memory) : (s.setMem m).st = s.st := rfl
@[simp] theorem State.setMem_grid (s : State) (m : Memory) : (s.setMem m).grid = s.grid := rfl
@[simp] theorem State.setMem_mode (s : State) (m : Memory) : (s.setMem m).mode = s.mode := rfl
@[simp] theorem State.setMem_pendingTicks (s : State) (m : Memory) : (s.setMem m).pendingTicks = s.pendingTicks := rfl
@[simp] theorem State.setMem_buzzer (s : State) (m : Memory) : (s.setMem m).buzzer = s.buzzer := rfl
@[simp] theorem State.setMem_status (s : State) (m : Memory) : (s.setMem m).status = s.status := rfl
@[simp] theorem State.setMem_ports (s : State) (m : Memory) : (s.setMem m).ports = s.ports := rfl
@[simp] theorem State.setMem_env (s : State) (m : Memory) : (s.setMem m).env = s.env := rfl
@[simp] theorem State.setMem_params (s : State) (m : Memory) : (s.setMem m).params = s.params := rfl
@[simp] theorem State.setMem_getV (s : State) (m : Memory) (q : RegNum) : (s.setMem m).getV q = s.getV q := rfl

/-! ### setMode -/

@[simp] theorem State.setMode_mem (s : State) (m : Mode) : (s.setMode m).mem = s.mem := rfl
@[simp] theorem State.setMode_v (s : State) (m : Mode) : (s.setMode m).v = s.v := rfl
@[simp] theorem State.setMode_i (s : State) (m : Mode) : (s.setMode m).i = s.i := rfl
@[simp] theorem State.setMode_pc (s : State) (m : Mode) : (s.setMode m).pc = s.pc := rfl
@[simp] theorem State.setMode_stack (s : State) (m : Mode) : (s.setMode m).stack = s.stack := rfl
@[simp] theorem State.setMode_dt (s : State) (m : Mode) : (s.setMode m).dt = s.dt := rfl
@[simp] theorem State.setMode_st (s : State) (m : Mode) : (s.setMode m).st = s.st := rfl
@[simp] theorem State.setMode_grid (s : State) (m : Mode) : (s.setMode m).grid = s.grid := rfl
@[simp] theorem State.setMode_mode (s : State) (m : Mode) : (s.setMode m).mode = m := rfl
@[simp] theorem State.setMode_pendingTicks (s : State) (m : Mode) : (s.setMode m).pendingTicks = s.pendingTicks := rfl
@[simp] theorem State.setMode_buzzer (s : State) (m : Mode) : (s.setMode m).buzzer = s.buzzer := rfl
@[simp] theorem State.setMode_status (s : State) (m : Mode) : (s.setMode m).status = s.status := rfl
@[simp] theorem State.setMode_ports (s : State) (m : Mode) : (s.setMode m).ports = s.ports := rfl
@[simp] theorem State.setMode_env (s : State) (m : Mode) : (s.setMode m).env = s.env := rfl
@[simp] theorem State.setMode_params (s : State) (m : Mode) : (s.setMode m).params = s.params := rfl
@[simp] theorem State.setMode_getV (s : State) (m : Mode) (q : RegNum) : (s.setMode m).getV q = s.getV q := rfl

/-! ### setStatus -/

@[simp] theorem State.setStatus_mem (s : State) (f : Status) : (s.setStatus f).mem = s.mem := rfl
@[simp] theorem State.setStatus_v (s : State) (f : Status) : (s.setStatus f).v = s.v := rfl
@[simp] theorem State.setStatus_i (s : State) (f : Status) : (s.setStatus f).i = s.i := rfl
@[simp] theorem State.setStatus_pc (s : State) (f : Status) : (s.setStatus f).pc = s.pc := rfl
@[simp] theorem State.setStatus_stack (s : State) (f : Status) : (s.setStatus f).stack = s.stack := rfl
@[simp] theorem State.setStatus_dt (s : State) (f : Status) : (s.setStatus f).dt = s.dt := rfl
@[simp] theorem State.setStatus_st (s : State) (f : Status) : (s.setStatus f).st = s.st := rfl
@[simp] theorem State.setStatus_grid (s : State) (f : Status) : (s.setStatus f).grid = s.grid := rfl
@[simp] theorem State.setStatus_mode (s : State) (f : Status) : (s.setStatus f).mode = s.mode := rfl
@[simp] theorem State.setStatus_pendingTicks (s : State) (f : Status) : (s.setStatus f).pendingTicks = s.pendingTicks := rfl
@[simp] theorem State.setStatus_buzzer (s : State) (f : Status) : (s.setStatus f).buzzer = s.buzzer := rfl
@[simp] theorem State.setStatus_status (s : State) (f : Status) : (s.setStatus f).status = f := rfl
@[simp] theorem State.setStatus_ports (s : State) (f : Status) : (s.setStatus f).ports = s.ports := rfl
@[simp] theorem State.setStatus_env (s : State) (f : Status) : (s.setStatus f).env = s.env := rfl
@[simp] theorem State.setStatus_params (s : State) (f : Status) : (s.setStatus f).params = s.params := rfl
@[simp] theorem State.setStatus_getV (s : State) (f : Status) (q : RegNum) : (s.setStatus f).getV q = s.getV q := rfl

/-! ### setEnv -/

@[simp] theorem State.setEnv_mem (s : State) (e : Env) : (s.setEnv e).mem = s.mem := rfl
@[simp] theorem State.setEnv_v (s : State) (e : Env) : (s.setEnv e).v = s.v := rfl
@[simp] theorem State.setEnv_i (s : State) (e : Env) : (s.setEnv e).i = s.i := rfl
@[simp] theorem State.setEnv_pc (s : State) (e : Env) : (s.setEnv e).pc = s.pc := rfl
@[simp] theorem State.setEnv_stack (s : State) (e : Env) : (s.setEnv e).stack = s.stack := rfl
@[simp] theorem State.setEnv_dt (s : State) (e : Env) : (s.setEnv e).dt = s.dt := rfl
@[simp] theorem State.setEnv_st (s : State) (e : Env) : (s.setEnv e).st = s.st := rfl
@[simp] theorem State.setEnv_grid (s : State) (e : Env) : (s.setEnv e).grid = s.grid := rfl
@[simp] theorem State.setEnv_mode (s : State) (e : Env) : (s.setEnv e).mode = s.mode := rfl
@[simp] theorem State.setEnv_pendingTicks (s : State) (e : Env) : (s.setEnv e).pendingTicks = s.pendingTicks := rfl
@[simp] theorem State.setEnv_buzzer (s : State) (e : Env) : (s.setEnv e).buzzer = s.buzzer := rfl
@[simp] theorem State.setEnv_status (s : State) (e : Env) : (s.setEnv e).status = s.status := rfl
@[simp] theorem State.setEnv_ports (s : State) (e : Env) : (s.setEnv e).ports = s.ports := rfl
@[simp] theorem State.setEnv_env (s : State) (e : Env) : (s.setEnv e).env = e := rfl
@[simp] theorem State.setEnv_params (s : State) (e : Env) : (s.setEnv e).params = s.params := rfl
@[simp] theorem State.setEnv_getV (s : State) (e : Env) (q : RegNum) : (s.setEnv e).getV q = s.getV q := rfl

/-! ### setPorts -/

@[simp] theorem State.setPorts_mem (s : State) (p : Ports) : (s.setPorts p).mem = s.mem := rfl
@[simp] theorem State.setPorts_v (s : State) (p : Ports) : (s.setPorts p).v = s.v := rfl
@[simp] theorem State.setPorts_i (s : State) (p : Ports) : (s.setPorts p).i = s.i := rfl
@[simp] theorem State.setPorts_pc (s : State) (p : Ports) : (s.setPorts p).pc = s.pc := rfl
@[simp] theorem State.setPorts_stack (s : State) (p : Ports) : (s.setPorts p).stack = s.stack := rfl
@[simp] theorem State.setPorts_dt (s : State) (p : Ports) : (s.setPorts p).dt = s.dt := rfl
@[simp] theorem State.setPorts_st (s : State) (p : Ports) : (s.setPorts p).st = s.st := rfl
@[simp] theorem State.setPorts_grid (s : State) (p : Ports) : (s.setPorts p).grid = s.grid := rfl
@[simp] theorem State.setPorts_mode (s : State) (p : Ports) : (s.setPorts p).mode = s.mode := rfl
@[simp] theorem State.setPorts_pendingTicks (s : State) (p : Ports) : (s.setPorts p).pendingTicks = s.pendingTicks := rfl
@[simp] theorem State.setPorts_buzzer (s : State) (p : Ports) : (s.setPorts p).buzzer = s.buzzer := rfl
@[simp] theorem State.setPorts_status (s : State) (p : Ports) : (s.setPorts p).status = s.status := rfl
@[simp] theorem State.setPorts_ports (s : State) (p : Ports) : (s.setPorts p).ports = p := rfl
@[simp] theorem State.setPorts_env (s : State) (p : Ports) : (s.setPorts p).env = s.env := rfl
@[simp] theorem State.setPorts_params (s : State) (p : Ports) : (s.setPorts p).params = s.params := rfl
@[simp] theorem State.setPorts_getV (s : State) (p : Ports) (q : RegNum) : (s.setPorts p).getV q = s.getV q := rfl

/-! ### setV -/

@[simp] theorem State.setV_mem (s : State) (r : RegNum) (b : Byte) : (s.setV r b).mem = s.mem := rfl
@[simp] theorem State.setV_v (s : State) (r : RegNum) (b : Byte) : (s.setV r b).v = s.v.set r.toNat b r.isLt := rfl
@[simp] theorem State.setV_i (s : State) (r : RegNum) (b : Byte) : (s.setV r b).i = s.i := rfl
@[simp] theorem State.setV_pc (s : State) (r : RegNum) (b : Byte) : (s.setV r b).pc = s.pc := rfl
@[simp] theorem State.setV_stack (s : State) (r : RegNum) (b : Byte) : (s.setV r b).stack = s.stack := rfl
@[simp] theorem State.setV_dt (s : State) (r : RegNum) (b : Byte) : (s.setV r b).dt = s.dt := rfl
@[simp] theorem State.setV_st (s : State) (r : RegNum) (b : Byte) : (s.setV r b).st = s.st := rfl
@[simp] theorem State.setV_grid (s : State) (r : RegNum) (b : Byte) : (s.setV r b).grid = s.grid := rfl
@[simp] theorem State.setV_mode (s : State) (r : RegNum) (b : Byte) : (s.setV r b).mode = s.mode := rfl
@[simp] theorem State.setV_pendingTicks (s : State) (r : RegNum) (b : Byte) : (s.setV r b).pendingTicks = s.pendingTicks := rfl
@[simp] theorem State.setV_buzzer (s : State) (r : RegNum) (b : Byte) : (s.setV r b).buzzer = s.buzzer := rfl
@[simp] theorem State.setV_status (s : State) (r : RegNum) (b : Byte) : (s.setV r b).status = s.status := rfl
@[simp] theorem State.setV_ports (s : State) (r : RegNum) (b : Byte) : (s.setV r b).ports = s.ports := rfl
@[simp] theorem State.setV_env (s : State) (r : RegNum) (b : Byte) : (s.setV r b).env = s.env := rfl
@[simp] theorem State.setV_params (s : State) (r : RegNum) (b : Byte) : (s.setV r b).params = s.params := rfl

/-! ### advancePc -/

@[simp] theorem State.advancePc_mem (s : State) : (s.advancePc).mem = s.mem := rfl
@[simp] theorem State.advancePc_v (s : State) : (s.advancePc).v = s.v := rfl
@[simp] theorem State.advancePc_i (s : State) : (s.advancePc).i = s.i := rfl
@[simp] theorem State.advancePc_pc (s : State) : (s.advancePc).pc = s.pc + 2#16 := rfl
@[simp] theorem State.advancePc_stack (s : State) : (s.advancePc).stack = s.stack := rfl
@[simp] theorem State.advancePc_dt (s : State) : (s.advancePc).dt = s.dt := rfl
@[simp] theorem State.advancePc_st (s : State) : (s.advancePc).st = s.st := rfl
@[simp] theorem State.advancePc_grid (s : State) : (s.advancePc).grid = s.grid := rfl
@[simp] theorem State.advancePc_mode (s : State) : (s.advancePc).mode = s.mode := rfl
@[simp] theorem State.advancePc_pendingTicks (s : State) : (s.advancePc).pendingTicks = s.pendingTicks := rfl
@[simp] theorem State.advancePc_buzzer (s : State) : (s.advancePc).buzzer = s.buzzer := rfl
@[simp] theorem State.advancePc_status (s : State) : (s.advancePc).status = s.status := rfl
@[simp] theorem State.advancePc_ports (s : State) : (s.advancePc).ports = s.ports := rfl
@[simp] theorem State.advancePc_env (s : State) : (s.advancePc).env = s.env := rfl
@[simp] theorem State.advancePc_params (s : State) : (s.advancePc).params = s.params := rfl
@[simp] theorem State.advancePc_getV (s : State) (q : RegNum) : (s.advancePc).getV q = s.getV q := rfl

/-! ### skip -/

@[simp] theorem State.skip_mem (s : State) : (s.skip).mem = s.mem := rfl
@[simp] theorem State.skip_v (s : State) : (s.skip).v = s.v := rfl
@[simp] theorem State.skip_i (s : State) : (s.skip).i = s.i := rfl
@[simp] theorem State.skip_pc (s : State) : (s.skip).pc = s.pc + 2#16 := rfl
@[simp] theorem State.skip_stack (s : State) : (s.skip).stack = s.stack := rfl
@[simp] theorem State.skip_dt (s : State) : (s.skip).dt = s.dt := rfl
@[simp] theorem State.skip_st (s : State) : (s.skip).st = s.st := rfl
@[simp] theorem State.skip_grid (s : State) : (s.skip).grid = s.grid := rfl
@[simp] theorem State.skip_mode (s : State) : (s.skip).mode = s.mode := rfl
@[simp] theorem State.skip_pendingTicks (s : State) : (s.skip).pendingTicks = s.pendingTicks := rfl
@[simp] theorem State.skip_buzzer (s : State) : (s.skip).buzzer = s.buzzer := rfl
@[simp] theorem State.skip_status (s : State) : (s.skip).status = s.status := rfl
@[simp] theorem State.skip_ports (s : State) : (s.skip).ports = s.ports := rfl
@[simp] theorem State.skip_env (s : State) : (s.skip).env = s.env := rfl
@[simp] theorem State.skip_params (s : State) : (s.skip).params = s.params := rfl
@[simp] theorem State.skip_getV (s : State) (q : RegNum) : (s.skip).getV q = s.getV q := rfl

/-! ### takeFault -/

@[simp] theorem State.takeFault_mem (s : State) (f : CycleFault) : (s.takeFault f).mem = s.mem := rfl
@[simp] theorem State.takeFault_v (s : State) (f : CycleFault) : (s.takeFault f).v = s.v := rfl
@[simp] theorem State.takeFault_i (s : State) (f : CycleFault) : (s.takeFault f).i = s.i := rfl
@[simp] theorem State.takeFault_pc (s : State) (f : CycleFault) : (s.takeFault f).pc = s.pc := rfl
@[simp] theorem State.takeFault_stack (s : State) (f : CycleFault) : (s.takeFault f).stack = s.stack := rfl
@[simp] theorem State.takeFault_dt (s : State) (f : CycleFault) : (s.takeFault f).dt = s.dt := rfl
@[simp] theorem State.takeFault_st (s : State) (f : CycleFault) : (s.takeFault f).st = s.st := rfl
@[simp] theorem State.takeFault_grid (s : State) (f : CycleFault) : (s.takeFault f).grid = s.grid := rfl
@[simp] theorem State.takeFault_mode (s : State) (f : CycleFault) : (s.takeFault f).mode = s.mode := rfl
@[simp] theorem State.takeFault_pendingTicks (s : State) (f : CycleFault) : (s.takeFault f).pendingTicks = s.pendingTicks := rfl
@[simp] theorem State.takeFault_buzzer (s : State) (f : CycleFault) : (s.takeFault f).buzzer = s.buzzer := rfl
@[simp] theorem State.takeFault_status (s : State) (f : CycleFault) : (s.takeFault f).status = .faulted (.inCycle f s.pc) := rfl
@[simp] theorem State.takeFault_ports (s : State) (f : CycleFault) : (s.takeFault f).ports = s.ports := rfl
@[simp] theorem State.takeFault_env (s : State) (f : CycleFault) : (s.takeFault f).env = s.env := rfl
@[simp] theorem State.takeFault_params (s : State) (f : CycleFault) : (s.takeFault f).params = s.params := rfl
@[simp] theorem State.takeFault_getV (s : State) (f : CycleFault) (q : RegNum) : (s.takeFault f).getV q = s.getV q := rfl

/-! ### gateBuzzer -/

@[simp] theorem State.gateBuzzer_mem (s : State) : (s.gateBuzzer).mem = s.mem := rfl
@[simp] theorem State.gateBuzzer_v (s : State) : (s.gateBuzzer).v = s.v := rfl
@[simp] theorem State.gateBuzzer_i (s : State) : (s.gateBuzzer).i = s.i := rfl
@[simp] theorem State.gateBuzzer_pc (s : State) : (s.gateBuzzer).pc = s.pc := rfl
@[simp] theorem State.gateBuzzer_stack (s : State) : (s.gateBuzzer).stack = s.stack := rfl
@[simp] theorem State.gateBuzzer_dt (s : State) : (s.gateBuzzer).dt = s.dt := rfl
@[simp] theorem State.gateBuzzer_st (s : State) : (s.gateBuzzer).st = s.st := rfl
@[simp] theorem State.gateBuzzer_grid (s : State) : (s.gateBuzzer).grid = s.grid := rfl
@[simp] theorem State.gateBuzzer_mode (s : State) : (s.gateBuzzer).mode = s.mode := rfl
@[simp] theorem State.gateBuzzer_pendingTicks (s : State) : (s.gateBuzzer).pendingTicks = s.pendingTicks := rfl
@[simp] theorem State.gateBuzzer_buzzer (s : State) : (s.gateBuzzer).buzzer = decide (1 < s.st.toNat) := rfl
@[simp] theorem State.gateBuzzer_status (s : State) : (s.gateBuzzer).status = s.status := rfl
@[simp] theorem State.gateBuzzer_ports (s : State) : (s.gateBuzzer).ports = s.ports := rfl
@[simp] theorem State.gateBuzzer_env (s : State) : (s.gateBuzzer).env = s.env := rfl
@[simp] theorem State.gateBuzzer_params (s : State) : (s.gateBuzzer).params = s.params := rfl
@[simp] theorem State.gateBuzzer_getV (s : State) (q : RegNum) : (s.gateBuzzer).getV q = s.getV q := rfl

/-! ### present -/

@[simp] theorem State.present_mem (s : State) : (s.present).mem = s.mem := rfl
@[simp] theorem State.present_v (s : State) : (s.present).v = s.v := rfl
@[simp] theorem State.present_i (s : State) : (s.present).i = s.i := rfl
@[simp] theorem State.present_pc (s : State) : (s.present).pc = s.pc := rfl
@[simp] theorem State.present_stack (s : State) : (s.present).stack = s.stack := rfl
@[simp] theorem State.present_dt (s : State) : (s.present).dt = s.dt := rfl
@[simp] theorem State.present_st (s : State) : (s.present).st = s.st := rfl
@[simp] theorem State.present_grid (s : State) : (s.present).grid = s.grid := rfl
@[simp] theorem State.present_mode (s : State) : (s.present).mode = s.mode := rfl
@[simp] theorem State.present_pendingTicks (s : State) : (s.present).pendingTicks = s.pendingTicks := rfl
@[simp] theorem State.present_buzzer (s : State) : (s.present).buzzer = s.buzzer := rfl
@[simp] theorem State.present_status (s : State) : (s.present).status = s.status := rfl
@[simp] theorem State.present_ports (s : State) : (s.present).ports = { s.ports with frameOut := s.grid } := rfl
@[simp] theorem State.present_env (s : State) : (s.present).env = s.env := rfl
@[simp] theorem State.present_params (s : State) : (s.present).params = s.params := rfl
@[simp] theorem State.present_getV (s : State) (q : RegNum) : (s.present).getV q = s.getV q := rfl

/-! ### stop -/

@[simp] theorem State.stop_mem (s : State) : (s.stop).mem = s.mem := rfl
@[simp] theorem State.stop_v (s : State) : (s.stop).v = s.v := rfl
@[simp] theorem State.stop_i (s : State) : (s.stop).i = s.i := rfl
@[simp] theorem State.stop_pc (s : State) : (s.stop).pc = s.pc := rfl
@[simp] theorem State.stop_stack (s : State) : (s.stop).stack = s.stack := rfl
@[simp] theorem State.stop_dt (s : State) : (s.stop).dt = s.dt := rfl
@[simp] theorem State.stop_st (s : State) : (s.stop).st = s.st := rfl
@[simp] theorem State.stop_grid (s : State) : (s.stop).grid = s.grid := rfl
@[simp] theorem State.stop_mode (s : State) : (s.stop).mode = s.mode := rfl
@[simp] theorem State.stop_pendingTicks (s : State) : (s.stop).pendingTicks = s.pendingTicks := rfl
@[simp] theorem State.stop_buzzer (s : State) : (s.stop).buzzer = s.buzzer := rfl
@[simp] theorem State.stop_status (s : State) : (s.stop).status = .stopped := rfl
@[simp] theorem State.stop_ports (s : State) : (s.stop).ports = { s.ports with shutdown := true } := rfl
@[simp] theorem State.stop_env (s : State) : (s.stop).env = s.env := rfl
@[simp] theorem State.stop_params (s : State) : (s.stop).params = s.params := rfl
@[simp] theorem State.stop_getV (s : State) (q : RegNum) : (s.stop).getV q = s.getV q := rfl

/-! ### advanceI -/

@[simp] theorem State.advanceI_mem (s : State) (n : Nat) : (s.advanceI n).mem = s.mem := rfl
@[simp] theorem State.advanceI_v (s : State) (n : Nat) : (s.advanceI n).v = s.v := rfl
@[simp] theorem State.advanceI_i (s : State) (n : Nat) : (s.advanceI n).i = s.i + BitVec.ofNat 16 n := rfl
@[simp] theorem State.advanceI_pc (s : State) (n : Nat) : (s.advanceI n).pc = s.pc := rfl
@[simp] theorem State.advanceI_stack (s : State) (n : Nat) : (s.advanceI n).stack = s.stack := rfl
@[simp] theorem State.advanceI_dt (s : State) (n : Nat) : (s.advanceI n).dt = s.dt := rfl
@[simp] theorem State.advanceI_st (s : State) (n : Nat) : (s.advanceI n).st = s.st := rfl
@[simp] theorem State.advanceI_grid (s : State) (n : Nat) : (s.advanceI n).grid = s.grid := rfl
@[simp] theorem State.advanceI_mode (s : State) (n : Nat) : (s.advanceI n).mode = s.mode := rfl
@[simp] theorem State.advanceI_pendingTicks (s : State) (n : Nat) : (s.advanceI n).pendingTicks = s.pendingTicks := rfl
@[simp] theorem State.advanceI_buzzer (s : State) (n : Nat) : (s.advanceI n).buzzer = s.buzzer := rfl
@[simp] theorem State.advanceI_status (s : State) (n : Nat) : (s.advanceI n).status = s.status := rfl
@[simp] theorem State.advanceI_ports (s : State) (n : Nat) : (s.advanceI n).ports = s.ports := rfl
@[simp] theorem State.advanceI_env (s : State) (n : Nat) : (s.advanceI n).env = s.env := rfl
@[simp] theorem State.advanceI_params (s : State) (n : Nat) : (s.advanceI n).params = s.params := rfl
@[simp] theorem State.advanceI_getV (s : State) (n : Nat) (q : RegNum) : (s.advanceI n).getV q = s.getV q := rfl

/-! ### loadBlock -/

@[simp] theorem State.loadBlock_mem (s : State) (x : RegNum) : (s.loadBlock x).mem = s.mem := rfl
@[simp] theorem State.loadBlock_i (s : State) (x : RegNum) : (s.loadBlock x).i = s.i := rfl
@[simp] theorem State.loadBlock_pc (s : State) (x : RegNum) : (s.loadBlock x).pc = s.pc := rfl
@[simp] theorem State.loadBlock_stack (s : State) (x : RegNum) : (s.loadBlock x).stack = s.stack := rfl
@[simp] theorem State.loadBlock_dt (s : State) (x : RegNum) : (s.loadBlock x).dt = s.dt := rfl
@[simp] theorem State.loadBlock_st (s : State) (x : RegNum) : (s.loadBlock x).st = s.st := rfl
@[simp] theorem State.loadBlock_grid (s : State) (x : RegNum) : (s.loadBlock x).grid = s.grid := rfl
@[simp] theorem State.loadBlock_mode (s : State) (x : RegNum) : (s.loadBlock x).mode = s.mode := rfl
@[simp] theorem State.loadBlock_pendingTicks (s : State) (x : RegNum) : (s.loadBlock x).pendingTicks = s.pendingTicks := rfl
@[simp] theorem State.loadBlock_buzzer (s : State) (x : RegNum) : (s.loadBlock x).buzzer = s.buzzer := rfl
@[simp] theorem State.loadBlock_status (s : State) (x : RegNum) : (s.loadBlock x).status = s.status := rfl
@[simp] theorem State.loadBlock_ports (s : State) (x : RegNum) : (s.loadBlock x).ports = s.ports := rfl
@[simp] theorem State.loadBlock_env (s : State) (x : RegNum) : (s.loadBlock x).env = s.env := rfl
@[simp] theorem State.loadBlock_params (s : State) (x : RegNum) : (s.loadBlock x).params = s.params := rfl

/-! ### popAgenda -/

@[simp] theorem State.popAgenda_mem (s : State) : (s.popAgenda).mem = s.mem := rfl
@[simp] theorem State.popAgenda_v (s : State) : (s.popAgenda).v = s.v := rfl
@[simp] theorem State.popAgenda_i (s : State) : (s.popAgenda).i = s.i := rfl
@[simp] theorem State.popAgenda_pc (s : State) : (s.popAgenda).pc = s.pc := rfl
@[simp] theorem State.popAgenda_stack (s : State) : (s.popAgenda).stack = s.stack := rfl
@[simp] theorem State.popAgenda_dt (s : State) : (s.popAgenda).dt = s.dt := rfl
@[simp] theorem State.popAgenda_st (s : State) : (s.popAgenda).st = s.st := rfl
@[simp] theorem State.popAgenda_grid (s : State) : (s.popAgenda).grid = s.grid := rfl
@[simp] theorem State.popAgenda_mode (s : State) : (s.popAgenda).mode = s.mode := rfl
@[simp] theorem State.popAgenda_pendingTicks (s : State) : (s.popAgenda).pendingTicks = s.pendingTicks := rfl
@[simp] theorem State.popAgenda_buzzer (s : State) : (s.popAgenda).buzzer = s.buzzer := rfl
@[simp] theorem State.popAgenda_status (s : State) : (s.popAgenda).status = s.status := rfl
@[simp] theorem State.popAgenda_ports (s : State) : (s.popAgenda).ports = s.ports := rfl
@[simp] theorem State.popAgenda_env (s : State) : (s.popAgenda).env = { s.env with agenda := s.env.agenda.tail } := rfl
@[simp] theorem State.popAgenda_params (s : State) : (s.popAgenda).params = s.params := rfl
@[simp] theorem State.popAgenda_getV (s : State) (q : RegNum) : (s.popAgenda).getV q = s.getV q := rfl

/-! ### setKeysStep -/

@[simp] theorem State.setKeysStep_mem (s : State) (k : KeyLines) : (s.setKeysStep k).mem = s.mem := rfl
@[simp] theorem State.setKeysStep_v (s : State) (k : KeyLines) : (s.setKeysStep k).v = s.v := rfl
@[simp] theorem State.setKeysStep_i (s : State) (k : KeyLines) : (s.setKeysStep k).i = s.i := rfl
@[simp] theorem State.setKeysStep_pc (s : State) (k : KeyLines) : (s.setKeysStep k).pc = s.pc := rfl
@[simp] theorem State.setKeysStep_stack (s : State) (k : KeyLines) : (s.setKeysStep k).stack = s.stack := rfl
@[simp] theorem State.setKeysStep_dt (s : State) (k : KeyLines) : (s.setKeysStep k).dt = s.dt := rfl
@[simp] theorem State.setKeysStep_st (s : State) (k : KeyLines) : (s.setKeysStep k).st = s.st := rfl
@[simp] theorem State.setKeysStep_grid (s : State) (k : KeyLines) : (s.setKeysStep k).grid = s.grid := rfl
@[simp] theorem State.setKeysStep_mode (s : State) (k : KeyLines) : (s.setKeysStep k).mode = s.mode := rfl
@[simp] theorem State.setKeysStep_pendingTicks (s : State) (k : KeyLines) : (s.setKeysStep k).pendingTicks = s.pendingTicks := rfl
@[simp] theorem State.setKeysStep_buzzer (s : State) (k : KeyLines) : (s.setKeysStep k).buzzer = s.buzzer := rfl
@[simp] theorem State.setKeysStep_status (s : State) (k : KeyLines) : (s.setKeysStep k).status = s.status := rfl
@[simp] theorem State.setKeysStep_ports (s : State) (k : KeyLines) : (s.setKeysStep k).ports = { s.ports with keys := k } := rfl
@[simp] theorem State.setKeysStep_env (s : State) (k : KeyLines) : (s.setKeysStep k).env = s.env := rfl
@[simp] theorem State.setKeysStep_params (s : State) (k : KeyLines) : (s.setKeysStep k).params = s.params := rfl
@[simp] theorem State.setKeysStep_getV (s : State) (k : KeyLines) (q : RegNum) : (s.setKeysStep k).getV q = s.getV q := rfl

/-! ### closeWindowStep -/

@[simp] theorem State.closeWindowStep_mem (s : State) : (s.closeWindowStep).mem = s.mem := rfl
@[simp] theorem State.closeWindowStep_v (s : State) : (s.closeWindowStep).v = s.v := rfl
@[simp] theorem State.closeWindowStep_i (s : State) : (s.closeWindowStep).i = s.i := rfl
@[simp] theorem State.closeWindowStep_pc (s : State) : (s.closeWindowStep).pc = s.pc := rfl
@[simp] theorem State.closeWindowStep_stack (s : State) : (s.closeWindowStep).stack = s.stack := rfl
@[simp] theorem State.closeWindowStep_dt (s : State) : (s.closeWindowStep).dt = s.dt := rfl
@[simp] theorem State.closeWindowStep_st (s : State) : (s.closeWindowStep).st = s.st := rfl
@[simp] theorem State.closeWindowStep_grid (s : State) : (s.closeWindowStep).grid = s.grid := rfl
@[simp] theorem State.closeWindowStep_mode (s : State) : (s.closeWindowStep).mode = s.mode := rfl
@[simp] theorem State.closeWindowStep_pendingTicks (s : State) : (s.closeWindowStep).pendingTicks = s.pendingTicks := rfl
@[simp] theorem State.closeWindowStep_buzzer (s : State) : (s.closeWindowStep).buzzer = s.buzzer := rfl
@[simp] theorem State.closeWindowStep_status (s : State) : (s.closeWindowStep).status = s.status := rfl
@[simp] theorem State.closeWindowStep_ports (s : State) : (s.closeWindowStep).ports = { s.ports with windowOpen := false } := rfl
@[simp] theorem State.closeWindowStep_env (s : State) : (s.closeWindowStep).env = s.env := rfl
@[simp] theorem State.closeWindowStep_params (s : State) : (s.closeWindowStep).params = s.params := rfl
@[simp] theorem State.closeWindowStep_getV (s : State) (q : RegNum) : (s.closeWindowStep).getV q = s.getV q := rfl

/-! ### supplyDrawStep -/

@[simp] theorem State.supplyDrawStep_mem (s : State) (b : Byte) : (s.supplyDrawStep b).mem = s.mem := rfl
@[simp] theorem State.supplyDrawStep_v (s : State) (b : Byte) : (s.supplyDrawStep b).v = s.v := rfl
@[simp] theorem State.supplyDrawStep_i (s : State) (b : Byte) : (s.supplyDrawStep b).i = s.i := rfl
@[simp] theorem State.supplyDrawStep_pc (s : State) (b : Byte) : (s.supplyDrawStep b).pc = s.pc := rfl
@[simp] theorem State.supplyDrawStep_stack (s : State) (b : Byte) : (s.supplyDrawStep b).stack = s.stack := rfl
@[simp] theorem State.supplyDrawStep_dt (s : State) (b : Byte) : (s.supplyDrawStep b).dt = s.dt := rfl
@[simp] theorem State.supplyDrawStep_st (s : State) (b : Byte) : (s.supplyDrawStep b).st = s.st := rfl
@[simp] theorem State.supplyDrawStep_grid (s : State) (b : Byte) : (s.supplyDrawStep b).grid = s.grid := rfl
@[simp] theorem State.supplyDrawStep_mode (s : State) (b : Byte) : (s.supplyDrawStep b).mode = s.mode := rfl
@[simp] theorem State.supplyDrawStep_pendingTicks (s : State) (b : Byte) : (s.supplyDrawStep b).pendingTicks = s.pendingTicks := rfl
@[simp] theorem State.supplyDrawStep_buzzer (s : State) (b : Byte) : (s.supplyDrawStep b).buzzer = s.buzzer := rfl
@[simp] theorem State.supplyDrawStep_status (s : State) (b : Byte) : (s.supplyDrawStep b).status = s.status := rfl
@[simp] theorem State.supplyDrawStep_ports (s : State) (b : Byte) : (s.supplyDrawStep b).ports = s.ports := rfl
@[simp] theorem State.supplyDrawStep_env (s : State) (b : Byte) : (s.supplyDrawStep b).env = { s.env with draws := s.env.draws ++ [b] } := rfl
@[simp] theorem State.supplyDrawStep_params (s : State) (b : Byte) : (s.supplyDrawStep b).params = s.params := rfl
@[simp] theorem State.supplyDrawStep_getV (s : State) (b : Byte) (q : RegNum) : (s.supplyDrawStep b).getV q = s.getV q := rfl

/-! ### skipIf -/

@[simp] theorem State.skipIf_mem (s : State) (c : Bool) : (s.skipIf c).mem = s.mem := by
  unfold State.skipIf; split <;> rfl
@[simp] theorem State.skipIf_v (s : State) (c : Bool) : (s.skipIf c).v = s.v := by
  unfold State.skipIf; split <;> rfl
@[simp] theorem State.skipIf_i (s : State) (c : Bool) : (s.skipIf c).i = s.i := by
  unfold State.skipIf; split <;> rfl
@[simp] theorem State.skipIf_stack (s : State) (c : Bool) : (s.skipIf c).stack = s.stack := by
  unfold State.skipIf; split <;> rfl
@[simp] theorem State.skipIf_dt (s : State) (c : Bool) : (s.skipIf c).dt = s.dt := by
  unfold State.skipIf; split <;> rfl
@[simp] theorem State.skipIf_st (s : State) (c : Bool) : (s.skipIf c).st = s.st := by
  unfold State.skipIf; split <;> rfl
@[simp] theorem State.skipIf_grid (s : State) (c : Bool) : (s.skipIf c).grid = s.grid := by
  unfold State.skipIf; split <;> rfl
@[simp] theorem State.skipIf_mode (s : State) (c : Bool) : (s.skipIf c).mode = s.mode := by
  unfold State.skipIf; split <;> rfl
@[simp] theorem State.skipIf_pendingTicks (s : State) (c : Bool) : (s.skipIf c).pendingTicks = s.pendingTicks := by
  unfold State.skipIf; split <;> rfl
@[simp] theorem State.skipIf_buzzer (s : State) (c : Bool) : (s.skipIf c).buzzer = s.buzzer := by
  unfold State.skipIf; split <;> rfl
@[simp] theorem State.skipIf_status (s : State) (c : Bool) : (s.skipIf c).status = s.status := by
  unfold State.skipIf; split <;> rfl
@[simp] theorem State.skipIf_ports (s : State) (c : Bool) : (s.skipIf c).ports = s.ports := by
  unfold State.skipIf; split <;> rfl
@[simp] theorem State.skipIf_env (s : State) (c : Bool) : (s.skipIf c).env = s.env := by
  unfold State.skipIf; split <;> rfl
@[simp] theorem State.skipIf_params (s : State) (c : Bool) : (s.skipIf c).params = s.params := by
  unfold State.skipIf; split <;> rfl
@[simp] theorem State.skipIf_getV (s : State) (c : Bool) (q : RegNum) : (s.skipIf c).getV q = s.getV q := by
  unfold State.skipIf; split <;> rfl

/-! ### pollTick -/

@[simp] theorem State.pollTick_mem (s : State) : (s.pollTick).mem = s.mem := by
  unfold State.pollTick; split <;> rfl
@[simp] theorem State.pollTick_v (s : State) : (s.pollTick).v = s.v := by
  unfold State.pollTick; split <;> rfl
@[simp] theorem State.pollTick_i (s : State) : (s.pollTick).i = s.i := by
  unfold State.pollTick; split <;> rfl
@[simp] theorem State.pollTick_pc (s : State) : (s.pollTick).pc = s.pc := by
  unfold State.pollTick; split <;> rfl
@[simp] theorem State.pollTick_stack (s : State) : (s.pollTick).stack = s.stack := by
  unfold State.pollTick; split <;> rfl
@[simp] theorem State.pollTick_grid (s : State) : (s.pollTick).grid = s.grid := by
  unfold State.pollTick; split <;> rfl
@[simp] theorem State.pollTick_mode (s : State) : (s.pollTick).mode = s.mode := by
  unfold State.pollTick; split <;> rfl
@[simp] theorem State.pollTick_buzzer (s : State) : (s.pollTick).buzzer = s.buzzer := by
  unfold State.pollTick; split <;> rfl
@[simp] theorem State.pollTick_status (s : State) : (s.pollTick).status = s.status := by
  unfold State.pollTick; split <;> rfl
@[simp] theorem State.pollTick_ports (s : State) : (s.pollTick).ports = s.ports := by
  unfold State.pollTick; split <;> rfl
@[simp] theorem State.pollTick_env (s : State) : (s.pollTick).env = s.env := by
  unfold State.pollTick; split <;> rfl
@[simp] theorem State.pollTick_params (s : State) : (s.pollTick).params = s.params := by
  unfold State.pollTick; split <;> rfl
@[simp] theorem State.pollTick_getV (s : State) (q : RegNum) : (s.pollTick).getV q = s.getV q := by
  unfold State.pollTick; split <;> rfl

/-! ### writeRF -/

@[simp] theorem State.writeRF_mem (s : State) (x : RegNum) (b : Byte) (f : Bool) : (s.writeRF x b f).mem = s.mem := by
  unfold State.writeRF; split <;> rfl
@[simp] theorem State.writeRF_i (s : State) (x : RegNum) (b : Byte) (f : Bool) : (s.writeRF x b f).i = s.i := by
  unfold State.writeRF; split <;> rfl
@[simp] theorem State.writeRF_pc (s : State) (x : RegNum) (b : Byte) (f : Bool) : (s.writeRF x b f).pc = s.pc := by
  unfold State.writeRF; split <;> rfl
@[simp] theorem State.writeRF_stack (s : State) (x : RegNum) (b : Byte) (f : Bool) : (s.writeRF x b f).stack = s.stack := by
  unfold State.writeRF; split <;> rfl
@[simp] theorem State.writeRF_dt (s : State) (x : RegNum) (b : Byte) (f : Bool) : (s.writeRF x b f).dt = s.dt := by
  unfold State.writeRF; split <;> rfl
@[simp] theorem State.writeRF_st (s : State) (x : RegNum) (b : Byte) (f : Bool) : (s.writeRF x b f).st = s.st := by
  unfold State.writeRF; split <;> rfl
@[simp] theorem State.writeRF_grid (s : State) (x : RegNum) (b : Byte) (f : Bool) : (s.writeRF x b f).grid = s.grid := by
  unfold State.writeRF; split <;> rfl
@[simp] theorem State.writeRF_mode (s : State) (x : RegNum) (b : Byte) (f : Bool) : (s.writeRF x b f).mode = s.mode := by
  unfold State.writeRF; split <;> rfl
@[simp] theorem State.writeRF_pendingTicks (s : State) (x : RegNum) (b : Byte) (f : Bool) : (s.writeRF x b f).pendingTicks = s.pendingTicks := by
  unfold State.writeRF; split <;> rfl
@[simp] theorem State.writeRF_buzzer (s : State) (x : RegNum) (b : Byte) (f : Bool) : (s.writeRF x b f).buzzer = s.buzzer := by
  unfold State.writeRF; split <;> rfl
@[simp] theorem State.writeRF_status (s : State) (x : RegNum) (b : Byte) (f : Bool) : (s.writeRF x b f).status = s.status := by
  unfold State.writeRF; split <;> rfl
@[simp] theorem State.writeRF_ports (s : State) (x : RegNum) (b : Byte) (f : Bool) : (s.writeRF x b f).ports = s.ports := by
  unfold State.writeRF; split <;> rfl
@[simp] theorem State.writeRF_env (s : State) (x : RegNum) (b : Byte) (f : Bool) : (s.writeRF x b f).env = s.env := by
  unfold State.writeRF; split <;> rfl
@[simp] theorem State.writeRF_params (s : State) (x : RegNum) (b : Byte) (f : Bool) : (s.writeRF x b f).params = s.params := by
  unfold State.writeRF; split <;> rfl

/-! ### tickStep -/

@[simp] theorem State.tickStep_mem (s : State) : (s.tickStep).mem = s.mem := by
  unfold State.tickStep; split <;> rfl
@[simp] theorem State.tickStep_v (s : State) : (s.tickStep).v = s.v := by
  unfold State.tickStep; split <;> rfl
@[simp] theorem State.tickStep_i (s : State) : (s.tickStep).i = s.i := by
  unfold State.tickStep; split <;> rfl
@[simp] theorem State.tickStep_pc (s : State) : (s.tickStep).pc = s.pc := by
  unfold State.tickStep; split <;> rfl
@[simp] theorem State.tickStep_stack (s : State) : (s.tickStep).stack = s.stack := by
  unfold State.tickStep; split <;> rfl
@[simp] theorem State.tickStep_dt (s : State) : (s.tickStep).dt = s.dt := by
  unfold State.tickStep; split <;> rfl
@[simp] theorem State.tickStep_st (s : State) : (s.tickStep).st = s.st := by
  unfold State.tickStep; split <;> rfl
@[simp] theorem State.tickStep_grid (s : State) : (s.tickStep).grid = s.grid := by
  unfold State.tickStep; split <;> rfl
@[simp] theorem State.tickStep_mode (s : State) : (s.tickStep).mode = s.mode := by
  unfold State.tickStep; split <;> rfl
@[simp] theorem State.tickStep_buzzer (s : State) : (s.tickStep).buzzer = s.buzzer := by
  unfold State.tickStep; split <;> rfl
@[simp] theorem State.tickStep_status (s : State) : (s.tickStep).status = s.status := by
  unfold State.tickStep; split <;> rfl
@[simp] theorem State.tickStep_ports (s : State) : (s.tickStep).ports = s.ports := by
  unfold State.tickStep; split <;> rfl
@[simp] theorem State.tickStep_env (s : State) : (s.tickStep).env = s.env := by
  unfold State.tickStep; split <;> rfl
@[simp] theorem State.tickStep_params (s : State) : (s.tickStep).params = s.params := by
  unfold State.tickStep; split <;> rfl
@[simp] theorem State.tickStep_getV (s : State) (q : RegNum) : (s.tickStep).getV q = s.getV q := by
  unfold State.tickStep; split <;> rfl

/-! ### observeShutdownStep -/

@[simp] theorem State.observeShutdownStep_mem (s : State) : (s.observeShutdownStep).mem = s.mem := by
  unfold State.observeShutdownStep; split <;> rfl
@[simp] theorem State.observeShutdownStep_v (s : State) : (s.observeShutdownStep).v = s.v := by
  unfold State.observeShutdownStep; split <;> rfl
@[simp] theorem State.observeShutdownStep_i (s : State) : (s.observeShutdownStep).i = s.i := by
  unfold State.observeShutdownStep; split <;> rfl
@[simp] theorem State.observeShutdownStep_pc (s : State) : (s.observeShutdownStep).pc = s.pc := by
  unfold State.observeShutdownStep; split <;> rfl
@[simp] theorem State.observeShutdownStep_stack (s : State) : (s.observeShutdownStep).stack = s.stack := by
  unfold State.observeShutdownStep; split <;> rfl
@[simp] theorem State.observeShutdownStep_dt (s : State) : (s.observeShutdownStep).dt = s.dt := by
  unfold State.observeShutdownStep; split <;> rfl
@[simp] theorem State.observeShutdownStep_st (s : State) : (s.observeShutdownStep).st = s.st := by
  unfold State.observeShutdownStep; split <;> rfl
@[simp] theorem State.observeShutdownStep_grid (s : State) : (s.observeShutdownStep).grid = s.grid := by
  unfold State.observeShutdownStep; split <;> rfl
@[simp] theorem State.observeShutdownStep_mode (s : State) : (s.observeShutdownStep).mode = s.mode := by
  unfold State.observeShutdownStep; split <;> rfl
@[simp] theorem State.observeShutdownStep_pendingTicks (s : State) : (s.observeShutdownStep).pendingTicks = s.pendingTicks := by
  unfold State.observeShutdownStep; split <;> rfl
@[simp] theorem State.observeShutdownStep_buzzer (s : State) : (s.observeShutdownStep).buzzer = s.buzzer := by
  unfold State.observeShutdownStep; split <;> rfl
@[simp] theorem State.observeShutdownStep_status (s : State) : (s.observeShutdownStep).status = s.status := by
  unfold State.observeShutdownStep; split <;> rfl
@[simp] theorem State.observeShutdownStep_ports (s : State) : (s.observeShutdownStep).ports = s.ports := by
  unfold State.observeShutdownStep; split <;> rfl
@[simp] theorem State.observeShutdownStep_params (s : State) : (s.observeShutdownStep).params = s.params := by
  unfold State.observeShutdownStep; split <;> rfl
@[simp] theorem State.observeShutdownStep_getV (s : State) (q : RegNum) : (s.observeShutdownStep).getV q = s.getV q := by
  unfold State.observeShutdownStep; split <;> rfl

/-! ### service -/

@[simp] theorem State.service_mem (s : State) : s.service.mem = s.mem := by
  simp [State.service]
@[simp] theorem State.service_v (s : State) : s.service.v = s.v := by
  simp [State.service]
@[simp] theorem State.service_i (s : State) : s.service.i = s.i := by
  simp [State.service]
@[simp] theorem State.service_pc (s : State) : s.service.pc = s.pc := by
  simp [State.service]
@[simp] theorem State.service_stack (s : State) : s.service.stack = s.stack := by
  simp [State.service]
@[simp] theorem State.service_grid (s : State) : s.service.grid = s.grid := by
  simp [State.service]
@[simp] theorem State.service_mode (s : State) : s.service.mode = s.mode := by
  simp [State.service]
@[simp] theorem State.service_status (s : State) : s.service.status = s.status := by
  simp [State.service]
@[simp] theorem State.service_env (s : State) : s.service.env = s.env := by
  simp [State.service]
@[simp] theorem State.service_params (s : State) : s.service.params = s.params := by
  simp [State.service]
@[simp] theorem State.service_dt (s : State) : s.service.dt = s.pollTick.dt := by
  simp [State.service]
@[simp] theorem State.service_st (s : State) : s.service.st = s.pollTick.st := by
  simp [State.service]
@[simp] theorem State.service_pendingTicks (s : State) : s.service.pendingTicks = s.pollTick.pendingTicks := by
  simp [State.service]
@[simp] theorem State.service_buzzer (s : State) : s.service.buzzer = decide (1 < s.pollTick.st.toNat) := by
  simp [State.service]
@[simp] theorem State.service_ports (s : State) : s.service.ports = { s.ports with frameOut := s.grid } := by
  simp [State.service]
@[simp] theorem State.service_getV (s : State) (q : RegNum) : s.service.getV q = s.getV q := by
  simp [State.service]

/-! ### Registers -/

@[simp] theorem State.getV_setV_same (s : State) (r : RegNum) (b : Byte) : (s.setV r b).getV r = b := by
  simp [State.getV, State.setV]

theorem State.getV_setV_other (s : State) (r q : RegNum) (b : Byte) (h : q ≠ r) : (s.setV r b).getV q = s.getV q := by
  have hne : r.toNat ≠ q.toNat := fun e => h (BitVec.eq_of_toNat_eq e.symm)
  simp [State.getV, State.setV, Vector.getElem_set_ne _ _ hne]

theorem State.getV_setV (s : State) (r q : RegNum) (b : Byte) :
    (s.setV r b).getV q = if q = r then b else s.getV q := by
  split
  · next h => subst h; exact s.getV_setV_same q b
  · next h => exact s.getV_setV_other r q b h

/-- Two states with the same registers through `getV` hold the same register file. -/
theorem State.v_ext (s t : State) (h : ∀ r, s.getV r = t.getV r) : s.v = t.v := by
  apply Vector.ext
  intro k hk
  have := h (BitVec.ofNat 4 k)
  simpa [State.getV, Nat.mod_eq_of_lt hk] using this

/-! ### Taking a turn -/

/-- With an empty agenda the turn is the engine's and taking it changes nothing. -/
theorem State.popAgenda_of_empty (s : State) (h : s.env.agenda = []) : s.turn = .engine ∧ s.popAgenda = s := by
  refine ⟨by simp [State.turn, h], ?_⟩
  cases s with
  | mk mem v i pc stack dt st grid mode pendingTicks buzzer status ports env params =>
    cases env with
    | mk agenda draws drawCount tickAlive =>
      simp only at h
      subst h
      rfl

end Sys2Proof.Machine
end

