-- ==== Sys2Proof/Laws/Ops.lean ====
section
/-! SUPPORT. One lemma for each shared operation, saying what it can answer, and what `exec` as a whole never does. -/

namespace Sys2Proof.Machine

theorem inRange_iff (first n : Nat) : inRange first n = true ↔ n = 0 ∨ first + n ≤ Config.memSize := by
  simp [inRange]

theorem inRange_two_iff (a : Nat) : inRange a 2 = true ↔ a + 1 < Config.memSize := by
  rw [inRange_iff]
  omega

theorem checked_of_inRange (first n : Nat) (k : Out) (h : inRange first n = true) : checked first n k = k := by
  simp [checked, h]

theorem checked_of_not_inRange (first n : Nat) (k : Out) (h : inRange first n = false) :
    checked first n k = .fault (.raised (.memoryRange (max first Config.memSize))) := by
  simp [checked, h, raise, failAddress]

/-- A checked access answers a next state only when it is in range, and then what its rest answers. -/
theorem checked_next (first n : Nat) (k : Out) (t : State) :
    checked first n k = .next t ↔ inRange first n = true ∧ k = .next t := by
  unfold checked
  split
  · next h => simp [h]
  · next h => simp [h, raise]

/-- A push answers a next state only when the stack is not full, and then what its rest answers. -/
theorem push_next (s : State) (w : Word) (k : State → Out) (t : State) :
    push s w k = .next t ↔ s.stackFull = false ∧ k (s.setStack (s.stack ++ [w])) = .next t := by
  unfold push
  split
  · next h => simp [h, raise]
  · next h => simp [h]

/-- A pop answers a next state only with a top entry, and then what its rest answers. -/
theorem pop_next (s : State) (k : Word → State → Out) (t : State) :
    pop s k = .next t ↔ ∃ w, s.stack.getLast? = some w ∧ k w (s.setStack s.stack.dropLast) = .next t := by
  unfold pop
  split
  · next h => simp [h, raise]
  · next w h => simp [h]

/-- A key query answers a next state only for a key number up to 15, and then what its rest answers. -/
theorem withKey_next (s : State) (x : RegNum) (k : Bool → Out) (t : State) :
    withKey s x k = .next t ↔
      (s.getV x).toNat ≤ 15 ∧ k (keyDown s.ports.keys (s.getV x).toNat) = .next t := by
  unfold withKey
  split
  · next h =>
    have : ¬(s.getV x).toNat ≤ 15 := by omega
    simp [this, raise]
  · next h =>
    have : (s.getV x).toNat ≤ 15 := by omega
    simp [this]

theorem State.skipIf_pc (s : State) (c : Bool) : (s.skipIf c).pc = if c then s.pc + 2#16 else s.pc := by
  cases c <;> rfl

theorem flagByte_toNat (c : Bool) : (flagByte c).toNat = if c then 1 else 0 := by
  cases c <;> rfl

/-- The registers after a result and flag write whose destination is not `VF`: both orders agree. -/
theorem State.getV_writeRF (s : State) (x q : RegNum) (b : Byte) (f : Bool) (hx : x ≠ vfNum) :
    (s.writeRF x b f).getV q = if q = x then b else if q = vfNum then flagByte f else s.getV q := by
  unfold State.writeRF
  split
  · rw [State.getV_setV, State.getV_setV]
    by_cases hq : q = x
    · subst hq; simp [hx]
    · simp [hq]
  · rw [State.getV_setV, State.getV_setV]

/-- The registers after a result and flag write to `VF`: the order decides. -/
theorem State.getV_writeRF_vf (s : State) (q : RegNum) (b : Byte) (f : Bool) :
    (s.writeRF vfNum b f).getV q =
      if q = vfNum then (match s.params.vfOrder with | .flagLast => flagByte f | .resultLast => b) else s.getV q := by
  cases h : s.params.vfOrder <;> simp only [State.writeRF, h, State.getV_setV] <;> split <;> rfl

/-- The scan finds a key that is down, below 16, and no lower one is down. -/
theorem scan_some (keys : KeyLines) (k : Nat) :
    scan keys = some k ↔ k < 16 ∧ keyDown keys k = true ∧ ∀ j, j < k → keyDown keys j = false := by
  unfold scan
  rw [List.find?_range_eq_some]
  constructor
  · rintro ⟨hd, hk, hj⟩
    exact ⟨by simpa using hk, hd, fun j h => by simpa using hj j h⟩
  · rintro ⟨hk, hd, hj⟩
    exact ⟨hd, by simpa using hk, fun j h => by simpa using hj j h⟩

/-- The scan finds none exactly when no key is down. -/
theorem scan_none (keys : KeyLines) : scan keys = none ↔ ∀ k, k < 16 → keyDown keys k = false := by
  simp [scan]

/-- Every instruction's meaning answers a next state that keeps the parameters, the ports, pending ticks, the buzzer and
the status, or raises a fault. -/
theorem exec_cases (i : Instr) (s : State) :
    (∃ t, exec i s = .next t ∧ t.params = s.params ∧ t.ports = s.ports ∧ t.pendingTicks = s.pendingTicks ∧
      t.buzzer = s.buzzer ∧ t.status = s.status ∧ t.env.agenda = s.env.agenda ∧ t.env.tickAlive = s.env.tickAlive) ∨
    ∃ f, exec i s = .fault (.raised f) := by
  have hdraw : s.env.afterDraw.agenda = s.env.agenda ∧ s.env.afterDraw.tickAlive = s.env.tickAlive := by
    unfold Env.afterDraw; split <;> exact ⟨rfl, rfl⟩
  cases i with
  | ret =>
    simp only [exec, execRet, pop]
    split
    · exact .inr ⟨_, rfl⟩
    · exact .inl ⟨_, rfl, by simp⟩
  | call nnn =>
    simp only [exec, execCall, push]
    split
    · exact .inr ⟨_, rfl⟩
    · exact .inl ⟨_, rfl, by simp⟩
  | skp x | sknp x =>
    simp only [exec, execSkp, execSknp, withKey]
    split
    · exact .inr ⟨_, rfl⟩
    · exact .inl ⟨_, rfl, by simp⟩
  | drw x y n =>
    simp only [exec, execDrw, checked]
    split
    · exact .inl ⟨_, rfl, by simp⟩
    · exact .inr ⟨_, rfl⟩
  | ldB x | ldIVx x | ldVxI x =>
    simp only [exec, execLdB, execLdIVx, execLdVxI, checked]
    split
    · exact .inl ⟨_, rfl, by simp⟩
    · exact .inr ⟨_, rfl⟩
  | rnd x nn => exact .inl ⟨_, rfl, by simp [hdraw]⟩
  | _ => exact .inl ⟨_, rfl, by simp⟩

end Sys2Proof.Machine
end

