-- ==== Sys2Proof/Laws/PerInstr.lean ====
section
/-! SUPPORT. The family RowMatch: the word of every instruction is one that its own row of the opcode table covers, and
that row is in the table (spec/30_encoding.md R57). One lemma per constructor of `Instr`. -/

namespace Sys2Proof.Laws.RowMatch

/-- The encoder's word matches the instruction's own row, and the table lists that row. -/
def Statement (i : Instr) : Prop := i.row.covers (encode i) = true ∧ i.row ∈ opcodeRows

/-! The masks of the table on the words of the encoder's formats. -/

theorem mask_nnn (op : BitVec 4) (nnn : Addr12) : formatNNN op nnn &&& 0xF000#16 = formatNNN op 0#12 := by
  have h : (op ++ nnn : BitVec (4 + 12)) &&& (BitVec.allOnes 4 ++ 0#12) = op ++ 0#12 := by
    rw [BitVec.and_append, BitVec.and_allOnes, BitVec.and_zero]
  exact h

theorem mask_xnn (op : BitVec 4) (x : RegNum) (nn : Byte) :
    formatXNN op x nn &&& 0xF000#16 = formatXNN op 0#4 0#8 := by
  have h : ((op ++ x : BitVec (4 + 4)) ++ nn : BitVec (4 + 4 + 8)) &&& ((BitVec.allOnes 4 ++ 0#4) ++ 0#8) =
      (op ++ 0#4) ++ 0#8 := by
    rw [BitVec.and_append, BitVec.and_append, BitVec.and_allOnes, BitVec.and_zero, BitVec.and_zero]
  exact h

theorem mask_xys (op : BitVec 4) (x y : RegNum) (sub : BitVec 4) :
    formatXYS op x y sub &&& 0xF00F#16 = formatXYS op 0#4 0#4 sub := by
  have h : ((op ++ x : BitVec (4 + 4)) ++ (y ++ sub : BitVec (4 + 4)) : BitVec (4 + 4 + (4 + 4))) &&&
      ((BitVec.allOnes 4 ++ 0#4) ++ (0#4 ++ BitVec.allOnes 4)) = (op ++ 0#4) ++ (0#4 ++ sub) := by
    simp only [BitVec.and_append, BitVec.and_allOnes, BitVec.and_zero]
  exact h

theorem mask_xyn (op : BitVec 4) (x y : RegNum) (n : RowCount) :
    formatXYN op x y n &&& 0xF000#16 = formatXNN op 0#4 0#8 := mask_xnn op x (y ++ n)

theorem mask_xff (op : BitVec 4) (x : RegNum) (f : Byte) :
    formatXFF op x f &&& 0xF0FF#16 = formatXFF op 0#4 f := by
  have h : ((op ++ x : BitVec (4 + 4)) ++ f : BitVec (4 + 4 + 8)) &&&
      ((BitVec.allOnes 4 ++ 0#4) ++ BitVec.allOnes 8) = (op ++ 0#4) ++ f := by
    simp only [BitVec.and_append, BitVec.and_allOnes, BitVec.and_zero]
  exact h

theorem cls : Statement .cls := ⟨by decide, by decide⟩
theorem ret : Statement .ret := ⟨by decide, by decide⟩
theorem jp (nnn : Addr12) : Statement (.jp nnn) := ⟨by simp only [OpcodeRow.covers, Instr.row, encode, mask_nnn]; decide, by simp only [Instr.row]; decide⟩
theorem call (nnn : Addr12) : Statement (.call nnn) := ⟨by simp only [OpcodeRow.covers, Instr.row, encode, mask_nnn]; decide, by simp only [Instr.row]; decide⟩
theorem seImm (x : RegNum) (nn : Byte) : Statement (.seImm x nn) := ⟨by simp only [OpcodeRow.covers, Instr.row, encode, mask_xnn]; decide, by simp only [Instr.row]; decide⟩
theorem sneImm (x : RegNum) (nn : Byte) : Statement (.sneImm x nn) := ⟨by simp only [OpcodeRow.covers, Instr.row, encode, mask_xnn]; decide, by simp only [Instr.row]; decide⟩
theorem seReg (x : RegNum) (y : RegNum) : Statement (.seReg x y) := ⟨by simp only [OpcodeRow.covers, Instr.row, encode, mask_xys]; decide, by simp only [Instr.row]; decide⟩
theorem ldImm (x : RegNum) (nn : Byte) : Statement (.ldImm x nn) := ⟨by simp only [OpcodeRow.covers, Instr.row, encode, mask_xnn]; decide, by simp only [Instr.row]; decide⟩
theorem addImm (x : RegNum) (nn : Byte) : Statement (.addImm x nn) := ⟨by simp only [OpcodeRow.covers, Instr.row, encode, mask_xnn]; decide, by simp only [Instr.row]; decide⟩
theorem ldReg (x : RegNum) (y : RegNum) : Statement (.ldReg x y) := ⟨by simp only [OpcodeRow.covers, Instr.row, encode, mask_xys]; decide, by simp only [Instr.row]; decide⟩
theorem orReg (x : RegNum) (y : RegNum) : Statement (.orReg x y) := ⟨by simp only [OpcodeRow.covers, Instr.row, encode, mask_xys]; decide, by simp only [Instr.row]; decide⟩
theorem andReg (x : RegNum) (y : RegNum) : Statement (.andReg x y) := ⟨by simp only [OpcodeRow.covers, Instr.row, encode, mask_xys]; decide, by simp only [Instr.row]; decide⟩
theorem xorReg (x : RegNum) (y : RegNum) : Statement (.xorReg x y) := ⟨by simp only [OpcodeRow.covers, Instr.row, encode, mask_xys]; decide, by simp only [Instr.row]; decide⟩
theorem addReg (x : RegNum) (y : RegNum) : Statement (.addReg x y) := ⟨by simp only [OpcodeRow.covers, Instr.row, encode, mask_xys]; decide, by simp only [Instr.row]; decide⟩
theorem sub (x : RegNum) (y : RegNum) : Statement (.sub x y) := ⟨by simp only [OpcodeRow.covers, Instr.row, encode, mask_xys]; decide, by simp only [Instr.row]; decide⟩
theorem shr (x : RegNum) (y : RegNum) : Statement (.shr x y) := ⟨by simp only [OpcodeRow.covers, Instr.row, encode, mask_xys]; decide, by simp only [Instr.row]; decide⟩
theorem subn (x : RegNum) (y : RegNum) : Statement (.subn x y) := ⟨by simp only [OpcodeRow.covers, Instr.row, encode, mask_xys]; decide, by simp only [Instr.row]; decide⟩
theorem shl (x : RegNum) (y : RegNum) : Statement (.shl x y) := ⟨by simp only [OpcodeRow.covers, Instr.row, encode, mask_xys]; decide, by simp only [Instr.row]; decide⟩
theorem sneReg (x : RegNum) (y : RegNum) : Statement (.sneReg x y) := ⟨by simp only [OpcodeRow.covers, Instr.row, encode, mask_xys]; decide, by simp only [Instr.row]; decide⟩
theorem ldI (nnn : Addr12) : Statement (.ldI nnn) := ⟨by simp only [OpcodeRow.covers, Instr.row, encode, mask_nnn]; decide, by simp only [Instr.row]; decide⟩
theorem jpV0 (nnn : Addr12) : Statement (.jpV0 nnn) := ⟨by simp only [OpcodeRow.covers, Instr.row, encode, mask_nnn]; decide, by simp only [Instr.row]; decide⟩
theorem rnd (x : RegNum) (nn : Byte) : Statement (.rnd x nn) := ⟨by simp only [OpcodeRow.covers, Instr.row, encode, mask_xnn]; decide, by simp only [Instr.row]; decide⟩
theorem drw (x : RegNum) (y : RegNum) (n : RowCount) : Statement (.drw x y n) := ⟨by simp only [OpcodeRow.covers, Instr.row, encode, mask_xyn]; decide, by simp only [Instr.row]; decide⟩
theorem skp (x : RegNum) : Statement (.skp x) := ⟨by simp only [OpcodeRow.covers, Instr.row, encode, mask_xff]; decide, by simp only [Instr.row]; decide⟩
theorem sknp (x : RegNum) : Statement (.sknp x) := ⟨by simp only [OpcodeRow.covers, Instr.row, encode, mask_xff]; decide, by simp only [Instr.row]; decide⟩
theorem ldVxDt (x : RegNum) : Statement (.ldVxDt x) := ⟨by simp only [OpcodeRow.covers, Instr.row, encode, mask_xff]; decide, by simp only [Instr.row]; decide⟩
theorem ldVxK (x : RegNum) : Statement (.ldVxK x) := ⟨by simp only [OpcodeRow.covers, Instr.row, encode, mask_xff]; decide, by simp only [Instr.row]; decide⟩
theorem ldDtVx (x : RegNum) : Statement (.ldDtVx x) := ⟨by simp only [OpcodeRow.covers, Instr.row, encode, mask_xff]; decide, by simp only [Instr.row]; decide⟩
theorem ldStVx (x : RegNum) : Statement (.ldStVx x) := ⟨by simp only [OpcodeRow.covers, Instr.row, encode, mask_xff]; decide, by simp only [Instr.row]; decide⟩
theorem addI (x : RegNum) : Statement (.addI x) := ⟨by simp only [OpcodeRow.covers, Instr.row, encode, mask_xff]; decide, by simp only [Instr.row]; decide⟩
theorem ldF (x : RegNum) : Statement (.ldF x) := ⟨by simp only [OpcodeRow.covers, Instr.row, encode, mask_xff]; decide, by simp only [Instr.row]; decide⟩
theorem ldB (x : RegNum) : Statement (.ldB x) := ⟨by simp only [OpcodeRow.covers, Instr.row, encode, mask_xff]; decide, by simp only [Instr.row]; decide⟩
theorem ldIVx (x : RegNum) : Statement (.ldIVx x) := ⟨by simp only [OpcodeRow.covers, Instr.row, encode, mask_xff]; decide, by simp only [Instr.row]; decide⟩
theorem ldVxI (x : RegNum) : Statement (.ldVxI x) := ⟨by simp only [OpcodeRow.covers, Instr.row, encode, mask_xff]; decide, by simp only [Instr.row]; decide⟩

end Sys2Proof.Laws.RowMatch
end

