-- ==== Sys2Proof/Laws/Startup.lean ====
section
/-! SUPPORT. The memory that startup makes: what each address reads as, and that it is canonical. -/

namespace Sys2Proof.Machine

/-- The cells made for a list of addresses read as the function on them and as unlisted elsewhere. -/
theorem Memory.read_cells (f : Nat → Byte) (l : List Nat) (hl : l.Nodup) (a : Nat) :
    Memory.read (l.filterMap fun a => if f a = Memory.unlisted a then none else some (a, f a)) a =
      if a ∈ l then f a else Memory.unlisted a := by
  induction l with
  | nil => rfl
  | cons k l ih =>
    obtain ⟨hk, hn⟩ := List.nodup_cons.1 hl
    rw [List.filterMap_cons]
    by_cases h : f k = Memory.unlisted k
    · rw [if_pos h]
      simp only [ih hn]
      by_cases e : a = k
      · subst e; simp [hk, h]
      · simp [e]
    · rw [if_neg h]
      simp only [Memory.read]
      by_cases e : k = a
      · simp [e]
      · have e' : a ≠ k := fun x => e x.symm
        simp only [e, if_false, List.mem_cons, e', false_or]
        exact ih hn

/-- The cells made for consecutive addresses inside memory are canonical. -/
theorem Memory.wfFrom_cells (f : Nat → Byte) (n lo : Nat) (h : lo + n ≤ Config.memSize) :
    Memory.wfFrom lo ((List.range' lo n).filterMap fun a => if f a = Memory.unlisted a then none else some (a, f a)) =
      true := by
  induction n generalizing lo with
  | zero => rfl
  | succ n ih =>
    rw [List.range'_succ, List.filterMap_cons]
    have hrest := ih (lo + 1) (by omega)
    by_cases hf : f lo = Memory.unlisted lo
    · rw [if_pos hf]
      exact Memory.wfFrom_mono _ _ _ (by omega) hrest
    · rw [if_neg hf]
      have hlo : lo < Config.memSize := by omega
      simp [Memory.wfFrom, hf, hrest, hlo]

/-- The memory made from a function reads as that function inside the address space. -/
theorem Memory.read_ofBytes (f : Nat → Byte) (a : Nat) (h : a < Config.memSize) : (Memory.ofBytes f).read a = f a := by
  unfold Memory.ofBytes
  rw [Memory.read_cells f _ List.nodup_range, if_pos (List.mem_range.2 h)]

/-- The memory made from a function is canonical. -/
theorem Memory.wf_ofBytes (f : Nat → Byte) : (Memory.ofBytes f).wf = true := by
  unfold Memory.ofBytes Memory.wf
  rw [List.range_eq_range']
  exact Memory.wfFrom_cells f _ _ (Nat.le_of_eq (Nat.zero_add _))

/-- A startup with its resources and an image that fits. -/
theorem State.startup_ok (p : Params) (font : Vector Byte Config.fontBytes) (fill : Nat → Byte) (image : List Byte)
    (h : wellFormedImage image = true) :
    State.startup p font fill { display := true, audio := true, image := some image } =
      { State.reset with params := p, mem := Memory.ofBytes (startupByte font fill image) } := by
  simp [State.startup, h]

end Sys2Proof.Machine
end

