-- ==== Sys2Proof/Laws/Step.lean ====
section
/-! SUPPORT. What a step can do, said once: which agent acts, and the ways an engine cycle can end. -/

namespace Sys2Proof.Machine

/-- Every next state of an engine cycle: a closed window, a waiting cycle, a fetch or decode fault, or an instruction
that completes or faults. -/
theorem engineStep_cases (s t : State) (h : engineStep s = .next t) :
    s.status = .run ∧
    ((s.ports.windowOpen = false ∧ t = s.stop) ∨
     (s.ports.windowOpen = true ∧ ∃ r, s.mode = .waitingForKey r ∧ t = s.waitingCycle r) ∨
     (s.ports.windowOpen = true ∧ s.mode = .running ∧ ∃ f, t = s.takeFault f) ∨
     (s.ports.windowOpen = true ∧ s.mode = .running ∧ ∃ w i u, fetch s = .ok w ∧ decodeWord w = .ok i ∧
        exec i s.advancePc = .next u ∧ t = u.service)) := by
  unfold engineStep at h
  split at h
  · exact absurd h (by simp)
  · exact absurd h (by simp)
  · next hrun =>
    refine ⟨hrun, ?_⟩
    split at h
    · next hw =>
      refine .inr ?_
      split at h
      · next hm =>
        refine .inr ?_
        unfold runningCycle at h
        split at h
        · next w hf =>
          unfold executeWord at h
          split at h
          · next i hd =>
            obtain ⟨u, hu, -⟩ | ⟨f, hf'⟩ := exec_cases i s.advancePc
            · rw [hu] at h
              simp only [finish, Host.Outcome.next.injEq] at h
              exact .inr ⟨hw, hm, w, i, u, hf, hd, hu, h.symm⟩
            · rw [hf'] at h
              simp only [finish, Host.Outcome.next.injEq] at h
              exact .inl ⟨hw, hm, f, h.symm⟩
          · simp only [raise, finish, Host.Outcome.next.injEq] at h
            exact .inl ⟨hw, hm, _, h.symm⟩
        · simp only [Host.Outcome.next.injEq] at h
          exact .inl ⟨hw, hm, _, h.symm⟩
      · next r hm =>
        simp only [Host.Outcome.next.injEq] at h
        exact .inl ⟨hw, r, hm, h.symm⟩
    · next hw =>
      simp only [Host.Outcome.next.injEq] at h
      exact .inl ⟨by simpa using hw, h.symm⟩

/-- Every next state of a step: an engine cycle, or a step of the tick source or of the host. -/
theorem step_cases (s t : State) (h : step s = .next t) :
    (s.turn = .engine ∧ engineStep s.popAgenda = .next t) ∨
    (s.turn = .tick ∧ t = s.popAgenda.tickStep) ∨
    (s.turn = .observeShutdown ∧ t = s.popAgenda.observeShutdownStep) ∨
    (∃ k, s.turn = .setKeys k ∧ t = s.popAgenda.setKeysStep k) ∨
    (s.turn = .closeWindow ∧ t = s.popAgenda.closeWindowStep) ∨
    (∃ b, s.turn = .supplyDraw b ∧ t = s.popAgenda.supplyDrawStep b) := by
  unfold step at h
  split at h
  · next ht => exact .inl ⟨ht, h⟩
  · next ht => exact .inr (.inl ⟨ht, (by simpa using h.symm)⟩)
  · next ht => exact .inr (.inr (.inl ⟨ht, (by simpa using h.symm)⟩))
  · next k ht => exact .inr (.inr (.inr (.inl ⟨k, ht, (by simpa using h.symm)⟩)))
  · next ht => exact .inr (.inr (.inr (.inr (.inl ⟨ht, (by simpa using h.symm)⟩))))
  · next b ht => exact .inr (.inr (.inr (.inr (.inr ⟨b, ht, (by simpa using h.symm)⟩))))

end Sys2Proof.Machine
end

