-- ==== Sys2Proof/Tests/Slice0.lean ====
section
/-! SUPPORT. The model's own tests. Decode words are written out bit by bit from spec/30_encoding.md R54 and R57; expected
results are the vectors of spec/95_test_vectors.md (L1, L2), one step each; then a witness for the hypotheses of every
statement that has any. -/

namespace Sys2Proof.Tests

open Sys2Proof.Machine

/-! ### Helpers -/

/-- A state with these registers set, from reset. -/
def withRegs (l : List (RegNum × Byte)) : State := l.foldl (fun s rb => s.setV rb.1 rb.2) State.reset

/-- Does a step on `s`, with the word `w` at its `PC`, answer a next state with this property? -/
def runs (s : State) (w : Nat) (p : State → Bool) : Bool :=
  match step (s.withFetchWord 16 w) with
  | .next t => p t
  | .fault _ => false
  | .refused _ => false

/-- Does a step on `s` itself answer a next state with this property? -/
def steps (s : State) (p : State → Bool) : Bool :=
  match step s with
  | .next t => p t
  | .fault _ => false
  | .refused _ => false

/-- The state has faulted in this cycle with this fault, `PC` as at its start. -/
def faultedWith (f : CycleFault) (pc : Word) (t : State) : Bool :=
  t.status == .faulted (.inCycle f pc) && t.pc == pc

/-! ### Well-formedness: the checks refuse ill-formed terms -/

theorem test_wf_family0 : wellFormedWord 0x0000#16 = false := by decide
theorem test_wf_family0_near : wellFormedWord 0x00E1#16 = false := by decide
theorem test_wf_family5 : wellFormedWord 0x5121#16 = false := by decide
theorem test_wf_family8 : wellFormedWord 0x8008#16 = false := by decide
theorem test_wf_family9 : wellFormedWord 0x912F#16 = false := by decide
theorem test_wf_familyE : wellFormedWord 0xE0FF#16 = false := by decide
theorem test_wf_familyF : wellFormedWord 0xF000#16 = false := by decide
theorem test_wf_accepts : wellFormedWord 0x812E#16 = true := by decide
theorem test_wf_image : wellFormedImage (List.replicate 3585 0#8) = false := by
  rw [wellFormedImage, List.length_replicate]; decide
theorem test_wf_params : Params.wf { stackCapacity := none, vfOrder := .flagLast, cpuHz := 0 } = false := by decide

/-! ### Decode: words written out bit by bit (R54, R57) -/

theorem test_decode_cls : decodeWord 0b0000000011100000#16 = .ok .cls := by decide
theorem test_decode_ret : decodeWord 0b0000000011101110#16 = .ok .ret := by decide
theorem test_decode_jp : decodeWord 0b0001001000110100#16 = .ok (.jp 0x234#12) := by decide
theorem test_decode_call : decodeWord 0b0010111111111110#16 = .ok (.call 0xFFE#12) := by decide
theorem test_decode_se_imm : decodeWord 0b0011001101000010#16 = .ok (.seImm 3#4 0x42#8) := by decide
theorem test_decode_sne_imm : decodeWord 0b0100101000000001#16 = .ok (.sneImm 10#4 0x01#8) := by decide
theorem test_decode_se_reg : decodeWord 0b0101000100100000#16 = .ok (.seReg 1#4 2#4) := by decide
theorem test_decode_ld_imm : decodeWord 0b0110101000101111#16 = .ok (.ldImm 10#4 0x2F#8) := by decide
theorem test_decode_add_imm : decodeWord 0b0111000000000011#16 = .ok (.addImm 0#4 0x03#8) := by decide
theorem test_decode_ld_reg : decodeWord 0b1000001011110000#16 = .ok (.ldReg 2#4 15#4) := by decide
theorem test_decode_or : decodeWord 0b1000000000010001#16 = .ok (.orReg 0#4 1#4) := by decide
theorem test_decode_and : decodeWord 0b1000000000010010#16 = .ok (.andReg 0#4 1#4) := by decide
theorem test_decode_xor : decodeWord 0b1000000000010011#16 = .ok (.xorReg 0#4 1#4) := by decide
theorem test_decode_add_reg : decodeWord 0b1000111100010100#16 = .ok (.addReg 15#4 1#4) := by decide
theorem test_decode_sub : decodeWord 0b1000000011110101#16 = .ok (.sub 0#4 15#4) := by decide
theorem test_decode_shr : decodeWord 0b1000000000010110#16 = .ok (.shr 0#4 1#4) := by decide
theorem test_decode_subn : decodeWord 0b1000000000010111#16 = .ok (.subn 0#4 1#4) := by decide
theorem test_decode_shl : decodeWord 0b1000000100101110#16 = .ok (.shl 1#4 2#4) := by decide
theorem test_decode_sne_reg : decodeWord 0b1001000100100000#16 = .ok (.sneReg 1#4 2#4) := by decide
theorem test_decode_ld_i : decodeWord 0b1010001011110000#16 = .ok (.ldI 0x2F0#12) := by decide
theorem test_decode_jp_v0 : decodeWord 0b1011001110100000#16 = .ok (.jpV0 0x3A0#12) := by decide
theorem test_decode_rnd : decodeWord 0b1100001100001111#16 = .ok (.rnd 3#4 0x0F#8) := by decide
theorem test_decode_drw : decodeWord 0b1101000100101111#16 = .ok (.drw 1#4 2#4 15#4) := by decide
theorem test_decode_skp : decodeWord 0b1110010110011110#16 = .ok (.skp 5#4) := by decide
theorem test_decode_sknp : decodeWord 0b1110010110100001#16 = .ok (.sknp 5#4) := by decide
theorem test_decode_ld_vx_dt : decodeWord 0b1111001100000111#16 = .ok (.ldVxDt 3#4) := by decide
theorem test_decode_ld_vx_k : decodeWord 0b1111001000001010#16 = .ok (.ldVxK 2#4) := by decide
theorem test_decode_ld_dt_vx : decodeWord 0b1111000000010101#16 = .ok (.ldDtVx 0#4) := by decide
theorem test_decode_ld_st_vx : decodeWord 0b1111000100011000#16 = .ok (.ldStVx 1#4) := by decide
theorem test_decode_add_i : decodeWord 0b1111000000011110#16 = .ok (.addI 0#4) := by decide
theorem test_decode_ld_f : decodeWord 0b1111010000101001#16 = .ok (.ldF 4#4) := by decide
theorem test_decode_ld_b : decodeWord 0b1111000000110011#16 = .ok (.ldB 0#4) := by decide
theorem test_decode_ld_i_vx : decodeWord 0b1111001101010101#16 = .ok (.ldIVx 3#4) := by decide
theorem test_decode_ld_vx_i : decodeWord 0b1111000101100101#16 = .ok (.ldVxI 1#4) := by decide
theorem test_decode_illegal : decodeWord 0x0123#16 = .error (.illegalInstruction 0x0123#16) := by decide
theorem test_decode_bytes_truncated : decodeBytes [0x12#8] = .error .truncated := by decide
theorem test_table_word : decodeTableWord 16 0xD015 = some (.drw 0#4 1#4 5#4) := by decide

/-! ### Fetch and memory (L2.1) -/

theorem test_fetch_big_endian : runs State.reset 0x1234 (fun t => t.pc == 0x234#16) = true := by decide
theorem test_fetch_odd_pc : runs (State.reset.setPc 0x201#16) 0x1300 (fun t => t.pc == 0x300#16) = true := by decide
theorem test_fetch_top : runs (State.reset.setPc 0xFFE#16) 0x1FFE (fun t => t.pc == 0xFFE#16) = true := by decide
theorem test_fetch_fff :
    steps (State.reset.setPc 0xFFF#16) (faultedWith (.memoryRange 0x1000) 0xFFF#16) = true := by decide
theorem test_fetch_10fe :
    steps (State.reset.setPc 0x10FE#16) (faultedWith (.memoryRange 0x10FE) 0x10FE#16) = true := by decide
theorem test_reset_memory_is_illegal :
    steps State.reset (faultedWith (.illegalInstruction 0x0000#16) 0x200#16) = true := by decide

/-! ### Family 0 (L2.2) -/

theorem test_cls :
    runs ((withRegs [(15#4, 7#8)]).setGrid ((Grid.off.flip 0 0).flip 63 31)) 0x00E0
      (fun t => t.grid == Grid.off && t.getV 15#4 == 7#8 && t.pc == 0x202#16) = true := by decide
theorem test_ret_two_entries :
    runs (State.reset.setStack [0x0206#16, 0x0302#16]) 0x00EE
      (fun t => t.pc == 0x302#16 && t.stack == [0x0206#16]) = true := by decide
theorem test_ret_empty : runs State.reset 0x00EE (faultedWith .stackUnderflow 0x200#16) = true := by decide

/-! ### Families 1 to 5 (L2.3) -/

theorem test_jp_self : runs State.reset 0x1200 (fun t => t.pc == 0x200#16) = true := by decide
theorem test_call : runs State.reset 0x2300 (fun t => t.stack == [0x0202#16] && t.pc == 0x300#16) = true := by decide
theorem test_call_full :
    runs { State.reset.setStack (List.replicate 4 0x0202#16) with
        params := { stackCapacity := some 4, vfOrder := .flagLast, cpuHz := 1 } } 0x2200
      (fun t => faultedWith (.stackOverflow 4) 0x200#16 t && t.stack.length == 4) = true := by decide
theorem test_se_imm : runs (withRegs [(3#4, 0x42#8)]) 0x3342 (fun t => t.pc == 0x204#16) = true := by decide
theorem test_se_imm_not : runs (withRegs [(3#4, 0x42#8)]) 0x3343 (fun t => t.pc == 0x202#16) = true := by decide
theorem test_sne_imm : runs (withRegs [(3#4, 0x42#8)]) 0x4342 (fun t => t.pc == 0x202#16) = true := by decide
theorem test_sne_imm_not : runs (withRegs [(3#4, 0x42#8)]) 0x4300 (fun t => t.pc == 0x204#16) = true := by decide
theorem test_se_reg : runs (withRegs [(1#4, 7#8), (2#4, 7#8)]) 0x5120 (fun t => t.pc == 0x204#16) = true := by decide
theorem test_se_reg_not : runs (withRegs [(1#4, 7#8), (2#4, 8#8)]) 0x5120 (fun t => t.pc == 0x202#16) = true := by decide

/-! ### Families 6 to 9 (L2.4) -/

theorem test_ld_imm : runs State.reset 0x6A2F (fun t => t.getV 10#4 == 0x2F#8) = true := by decide
theorem test_add_imm_vf : runs (withRegs [(15#4, 0xFF#8)]) 0x7F01 (fun t => t.getV 15#4 == 0#8) = true := by decide
theorem test_ld_reg : runs (withRegs [(1#4, 9#8)]) 0x8010 (fun t => t.getV 0#4 == 9#8) = true := by decide
theorem test_or :
    runs (withRegs [(0#4, 0x0F#8), (1#4, 0xF0#8), (15#4, 5#8)]) 0x8011
      (fun t => t.getV 0#4 == 0xFF#8 && t.getV 15#4 == 5#8) = true := by decide
theorem test_and : runs (withRegs [(0#4, 0x3C#8), (1#4, 0x0F#8)]) 0x8012 (fun t => t.getV 0#4 == 0x0C#8) = true := by
  decide
theorem test_xor : runs (withRegs [(0#4, 0xFF#8), (1#4, 0x0F#8)]) 0x8013 (fun t => t.getV 0#4 == 0xF0#8) = true := by
  decide
theorem test_add_carry :
    runs (withRegs [(0#4, 0xC8#8), (1#4, 0x64#8)]) 0x8014
      (fun t => t.getV 0#4 == 0x2C#8 && t.getV 15#4 == 1#8) = true := by decide
theorem test_add_vf_both_orders :
    (runs (withRegs [(15#4, 0xC8#8), (1#4, 0x64#8)]) 0x8F14 (fun t => t.getV 15#4 == 0x01#8) &&
     runs { withRegs [(15#4, 0xC8#8), (1#4, 0x64#8)] with
        params := { stackCapacity := none, vfOrder := .resultLast, cpuHz := 1 } } 0x8F14
      (fun t => t.getV 15#4 == 0x2C#8)) = true := by decide
theorem test_sub_borrow :
    runs (withRegs [(0#4, 5#8), (1#4, 7#8)]) 0x8015
      (fun t => t.getV 0#4 == 0xFE#8 && t.getV 15#4 == 0#8) = true := by decide
theorem test_sub_vf_source :
    runs (withRegs [(0#4, 0x10#8), (15#4, 1#8)]) 0x80F5
      (fun t => t.getV 0#4 == 0x0F#8 && t.getV 15#4 == 1#8) = true := by decide
theorem test_shr :
    runs (withRegs [(0#4, 0xFF#8), (1#4, 0xB3#8)]) 0x8016
      (fun t => t.getV 0#4 == 0x59#8 && t.getV 15#4 == 1#8) = true := by decide
theorem test_subn :
    runs (withRegs [(0#4, 7#8), (1#4, 5#8)]) 0x8017
      (fun t => t.getV 0#4 == 0xFE#8 && t.getV 15#4 == 0#8) = true := by decide
theorem test_shl :
    runs (withRegs [(2#4, 0x81#8)]) 0x812E (fun t => t.getV 1#4 == 2#8 && t.getV 15#4 == 1#8) = true := by decide
theorem test_sne_reg : runs (withRegs [(1#4, 1#8), (2#4, 2#8)]) 0x9120 (fun t => t.pc == 0x204#16) = true := by decide
theorem test_sne_reg_not : runs (withRegs [(1#4, 3#8), (2#4, 3#8)]) 0x9120 (fun t => t.pc == 0x202#16) = true := by
  decide

/-! ### Families A to D (L2.5) -/

theorem test_ld_i : runs State.reset 0xA2F0 (fun t => t.i == 0x02F0#16) = true := by decide
theorem test_jp_v0 : runs (withRegs [(0#4, 5#8), (3#4, 1#8)]) 0xB3A0 (fun t => t.pc == 0x3A5#16) = true := by decide
theorem test_rnd :
    runs { State.reset with env := { Env.reset with draws := [0xA7#8] } } 0xC30F
      (fun t => t.getV 3#4 == 7#8 && t.env.draws == []) = true := by decide
theorem test_drw_glyph_row :
    runs State.reset 0xD011
      (fun t => t.grid == (((Grid.off.flip 0 0).flip 1 0).flip 2 0).flip 3 0 && t.getV 15#4 == 0#8) = true := by decide
theorem test_drw_clips :
    runs (withRegs [(0#4, 0x7F#8), (1#4, 0x3F#8)]) 0xD015
      (fun t => t.grid == Grid.off.flip 63 31 && t.getV 15#4 == 0#8) = true := by decide
theorem test_drw_out_of_range :
    runs (State.reset.setI 0xFFF#16) 0xD012 (faultedWith (.memoryRange 0x1000) 0x200#16) = true := by decide

/-! ### Families E and F (L2.6) -/

/-- Only key A is down. -/
def keyAReset : State := (withRegs [(5#4, 0x0A#8)]).setPorts { Ports.reset with keys := 0x0400#16 }

theorem test_skp : runs keyAReset 0xE59E (fun t => t.pc == 0x204#16) = true := by decide
theorem test_skp_range : runs (withRegs [(0#4, 0x10#8)]) 0xE09E (faultedWith (.keyRange 0x10#8) 0x200#16) = true := by
  decide
theorem test_sknp : runs keyAReset 0xE5A1 (fun t => t.pc == 0x202#16) = true := by decide
theorem test_sknp_up : runs (withRegs [(5#4, 0x0A#8)]) 0xE5A1 (fun t => t.pc == 0x204#16) = true := by decide
theorem test_ld_vx_dt :
    runs { State.reset.setDt 0x3C#8 with pendingTicks := 1 } 0xF307
      (fun t => t.getV 3#4 == 0x3C#8 && t.dt == 0x3B#8 && t.pendingTicks == 0) = true := by decide
theorem test_ld_vx_k :
    runs State.reset 0xF20A (fun t => t.mode == .waitingForKey 2#4 && t.pc == 0x202#16) = true := by decide
theorem test_ld_dt_vx_tick :
    runs { withRegs [(0#4, 5#8)] with pendingTicks := 1 } 0xF015 (fun t => t.dt == 4#8) = true := by decide
theorem test_ld_st_vx_tick :
    runs { withRegs [(0#4, 2#8)] with pendingTicks := 1 } 0xF018 (fun t => t.st == 1#8 && !t.buzzer) = true := by decide
theorem test_ld_st_vx : runs (withRegs [(1#4, 0x10#8)]) 0xF118 (fun t => t.st == 0x10#8 && t.buzzer) = true := by decide
theorem test_add_i :
    runs ((withRegs [(0#4, 2#8)]).setI 0xFFFF#16) 0xF01E (fun t => t.i == 1#16 && t.getV 15#4 == 0#8) = true := by decide
theorem test_ld_f : runs (withRegs [(15#4, 0xFF#8)]) 0xFF29 (fun t => t.i == 0x04FB#16) = true := by decide
theorem test_ld_b :
    runs ((withRegs [(0#4, 0x9D#8)]).setI 0x300#16) 0xF033
      (fun t => t.mem.readList 0x300 3 == [1#8, 5#8, 7#8] && t.i == 0x300#16) = true := by decide
theorem test_ld_b_out_of_range :
    runs (State.reset.setI 0xFFE#16) 0xF033 (faultedWith (.memoryRange 0x1000) 0x200#16) = true := by decide
theorem test_ld_i_vx :
    runs ((withRegs [(0#4, 1#8), (1#4, 2#8), (2#4, 3#8), (3#4, 4#8)]).setI 0x300#16) 0xF355
      (fun t => t.mem.readList 0x300 5 == [1#8, 2#8, 3#8, 4#8, 0#8] && t.i == 0x304#16) = true := by decide
theorem test_ld_i_vx_out_of_range :
    runs (State.reset.setI 0xFFD#16) 0xF355 (faultedWith (.memoryRange 0x1000) 0x200#16) = true := by decide
theorem test_ld_vx_i :
    runs (((withRegs [(2#4, 0x77#8)]).setI 0x300#16).setMem [(0x300, 0x0A#8), (0x301, 0x0B#8)]) 0xF165
      (fun t => t.getV 0#4 == 0x0A#8 && t.getV 1#4 == 0x0B#8 && t.getV 2#4 == 0x77#8 && t.i == 0x302#16) = true := by
  decide
theorem test_ld_vx_i_top :
    runs ((withRegs [(15#4, 1#8)]).setI 0xFF0#16) 0xFF65 (fun t => t.getV 15#4 == 0#8 && t.i == 0x1000#16) = true := by
  decide

/-! ### The key wait, service and the ends of a run (L2.6, L2.7) -/

/-- A wait for V2 with keys 3 and A down, ticks pending. -/
def waitingReset : State :=
  { ((State.reset.setMode (.waitingForKey 2#4)).setPorts { Ports.reset with keys := 0x0408#16 }).setDt 5#8 with
    pendingTicks := 2 }

theorem test_wait_lowest_key :
    steps waitingReset (fun t => t.getV 2#4 == 3#8 && t.mode == .running && t.pc == 0x200#16 && t.dt == 5#8 &&
      t.pendingTicks == 2) = true := by decide
theorem test_wait_no_key :
    steps (waitingReset.setPorts Ports.reset) (fun t => t.mode == .waitingForKey 2#4 && t.pendingTicks == 2) = true := by
  decide
theorem test_ticks_saturate :
    runs { State.reset with pendingTicks := 3 } 0x1200
      (fun t => t.pendingTicks == 2 && t.dt == 0#8 && t.st == 0#8) = true := by decide
theorem test_window_closed :
    steps (State.reset.setPorts { Ports.reset with windowOpen := false })
      (fun t => t.status == .stopped && t.ports.shutdown && t.pc == 0x200#16) = true := by decide
theorem test_tick_turn :
    steps (State.reset.setEnv { Env.reset with agenda := [.tick, .engine] })
      (fun t => t.pendingTicks == 1 && t.env.agenda == [.engine]) = true := by decide

/-! ### Witnesses: the hypotheses of the statements can be met -/

/-- Reset with a word at `PC`. -/
def placed (w : Nat) : State := State.reset.withFetchWord 16 w

/-- The state after the step, when there is one. -/
def stepped (s : State) : State :=
  match step s with
  | .next t => t
  | .fault _ => s
  | .refused _ => s

/-- The state after an instruction, when there is one. -/
def executed (i : Instr) (s : State) : State :=
  match exec i s with
  | .next t => t
  | .fault _ => s
  | .refused _ => s

theorem witness_EncodeOfDecodeIsTheWord : decodeWord 0xF165#16 = .ok (.ldVxI 1#4) := by decide
theorem witness_DecodeAcceptsExactlyTheTable :
    wellFormedWord 0x8FFE#16 = true ∧ illegalByFamily 0x8FFF#16 = true ∧ illegalByFamily 0xFFFF#16 = true ∧
      illegalByFamily 0x0FFF#16 = true := by decide
theorem witness_NoWordMatchesTwoRows :
    Instr.row (.shl 1#4 2#4) ∈ opcodeRows ∧ (Instr.row (.shl 1#4 2#4)).covers 0x812E#16 = true := by decide
theorem witness_PlacedWordIsTheOneRun :
    State.reset.mem.wf = true ∧ decodeTableWord 16 0xD015 = some (.drw 0#4 1#4 5#4) := by decide

/-- For StepRunsTheDecodedInstruction and ServiceGatesTheBuzzerAndPresentsTheGrid: `runs` is met, and the instruction
completes. -/
theorem witness_StepRunsTheDecodedInstruction_completes :
    (placed 0x6A2F).runs (.ldImm 10#4 0x2F#8) ∧
    (match exec (.ldImm 10#4 0x2F#8) (placed 0x6A2F).executing with
      | .next t => t.getV 10#4 == 0x2F#8 | .fault _ => false | .refused _ => false) = true := by decide
theorem witness_StepRunsTheDecodedInstruction_faults :
    (placed 0x00EE).runs .ret ∧
    (match exec .ret (placed 0x00EE).executing with
      | .next _ => false | .fault f => f == .raised .stackUnderflow | .refused _ => false) = true := by decide
theorem witness_RunningCycleConsumesAtMostOneTick :
    ({ placed 0x1200 with pendingTicks := 3 }).runs (.jp 0x200#12) ∧ (placed 0x1200).pendingTicks = 0 ∧
      waitingReset.cycleBegins ∧ waitingReset.mode = .waitingForKey 2#4 := by decide
theorem witness_FetchOutsideMemoryFaults :
    (State.reset.setPc 0xFFF#16).cycleBegins ∧ (State.reset.setPc 0xFFF#16).mode = .running ∧
      0xFFF ≤ (State.reset.setPc 0xFFF#16).pc.toNat := by decide
theorem witness_IllegalWordFaults :
    (placed 0x5121).fetches ∧ illegalByFamily (placed 0x5121).fetched = true ∧
      steps (placed 0x5121) (faultedWith (.illegalInstruction 0x5121#16) 0x200#16) = true := by decide
theorem witness_FaultRestoresTheCycleStart :
    (placed 0x00EE).status = .run ∧ steps (placed 0x00EE) (faultedWith .stackUnderflow 0x200#16) = true := by decide
theorem witness_ClosedWindowStopsTheRun :
    (State.reset.setPorts { Ports.reset with windowOpen := false }).turn = .engine ∧
      (State.reset.setPorts { Ports.reset with windowOpen := false }).status = .run ∧
      (State.reset.setPorts { Ports.reset with windowOpen := false }).ports.windowOpen = false := by decide

/-- A stopped block, and a faulted one, with a tick to come. -/
def endedWith (st : Status) (e : Event) : State :=
  (State.reset.setStatus st).setEnv { Env.reset with agenda := [e] }

theorem witness_NothingRunsAfterTheEnd :
    (endedWith .stopped .tick).status ≠ .run ∧ steps (endedWith .stopped .tick) (fun t => t.pendingTicks == 1) = true ∧
      (endedWith (.faulted (.inCycle .stackUnderflow 0x200#16)) .tick).status ≠ .stopped ∧
      steps (endedWith (.faulted (.inCycle .stackUnderflow 0x200#16)) .tick) (fun t => t.pendingTicks == 0) = true ∧
      (endedWith .stopped .engine).turn = .engine := by decide
theorem witness_KeyWaitCycle :
    waitingReset.cycleBegins ∧ waitingReset.ports.keys[(3 : Fin 16)] = true ∧
      (∀ j : Fin 16, j < 3 → waitingReset.ports.keys[j] = false) ∧
      (∀ j : Fin 16, (waitingReset.setPorts Ports.reset).ports.keys[j] = false) ∧
      (waitingReset.setPorts Ports.reset).cycleBegins := by decide
theorem witness_KeyWaitCycle_boundary_keys :
    ((0x8000#16 : KeyLines)[(15 : Fin 16)] = true ∧ ∀ j : Fin 16, j < 15 → (0x8000#16 : KeyLines)[j] = false) ∧
      (0xFFFF#16 : KeyLines)[(0 : Fin 16)] = true := by decide
theorem witness_TickSourceAddsOneUntilShutdown :
    (endedWith .run .tick).turn = .tick ∧ (endedWith .run .tick).env.tickAlive = true ∧
      (endedWith .run .observeShutdown).turn = .observeShutdown ∧
      (endedWith .run .observeShutdown).ports.shutdown = false ∧
      ((endedWith .stopped .observeShutdown).setPorts { Ports.reset with shutdown := true }).ports.shutdown = true ∧
      ((endedWith .run .tick).setEnv { Env.reset with agenda := [.tick], tickAlive := false }).turn = .tick := by decide
theorem witness_HostChangesInputsOnly :
    (endedWith .run (.setKeys 1#16)).turn = .setKeys 1#16 ∧ (endedWith .run .closeWindow).turn = .closeWindow ∧
      (endedWith .run (.supplyDraw 7#8)).turn = .supplyDraw 7#8 := by decide
theorem witness_StartupLoadsTheImage : ([0x12#8, 0x00#8] : List Byte).length ≤ 3584 ∧ 1 ≤ Params.simulator.cpuHz := by
  decide
theorem witness_FailedStartupRunsNoCycle :
    ({ display := true, audio := true, image := none } : StartupInputs).image = none ∧
      ({ display := false, audio := true, image := none } : StartupInputs).display = false ∧
      3584 < (List.replicate 3585 (0#8 : Byte)).length := ⟨rfl, rfl, by rw [List.length_replicate]; decide⟩
theorem witness_EveryStepKeepsTheInvariant :
    (placed 0xF118).Inv ∧ steps (placed 0xF118) (fun t => t.pc == 0x202#16) = true := by decide
theorem witness_OnlyFx33AndFx55ChangeMemory :
    steps ((placed 0xF033).setI 0x300#16 |>.setV 0#4 9#8) (fun t => t.mem.read 0x302 == 9#8) = true ∧
      ((placed 0xF033).setI 0x300#16 |>.setV 0#4 9#8).mem.read 0x302 = 0#8 := by decide
theorem witness_OnlyClsAndDrwChangeTheGrid :
    steps (placed 0xD011) (fun t => t.grid != (placed 0xD011).grid) = true := by decide
theorem witness_OnlyCallAndRetChangeTheStack :
    steps (placed 0x2300) (fun t => t.stack != (placed 0x2300).stack) = true ∧
      steps ((placed 0x00EE).setStack [0x206#16]) (fun t => t.stack == []) = true := by decide
theorem witness_OnlyTheKeyWaitChangesTheMode :
    steps (placed 0xF20A) (fun t => t.mode != .running) = true ∧ steps waitingReset (fun t => t.mode == .running) = true := by
  decide
theorem witness_TimersChangeOnlyByWritesAndTicks :
    steps { placed 0x1200 with dt := 5#8, st := 1#8, pendingTicks := 1 } (fun t => t.dt == 4#8 && t.st == 0#8) = true ∧
      steps ((placed 0xF015).setV 0#4 5#8) (fun t => t.dt == 5#8) = true := by decide
theorem witness_TimersAreReadOnlyByFx07 :
    (match exec (.ldVxK 1#4) State.reset with | .next _ => true | .fault _ => false | .refused _ => false) = true ∧
      (match exec .ret State.reset with | .next _ => false | .fault _ => true | .refused _ => false) = true ∧
      Instr.ldVxK 1#4 ≠ Instr.ldVxDt 1#4 := by decide
theorem witness_GridIsReadOnlyByDrw :
    (match exec .cls State.reset with | .next _ => true | .fault _ => false | .refused _ => false) = true ∧
      (match exec .ret State.reset with | .next _ => false | .fault _ => true | .refused _ => false) = true ∧
      ∀ x y k, Instr.cls ≠ .drw x y k ∧ Instr.ret ≠ .drw x y k :=
  ⟨by decide, by decide, fun _ _ _ => ⟨nofun, nofun⟩⟩
theorem witness_EachInstructionRaisesOnlyItsOwnFault :
    (match exec (.skp 0#4) (State.reset.setV 0#4 16#8) with
      | .next _ => false | .fault f => f == .raised (.keyRange 16#8) | .refused _ => false) = true ∧
    (match exec (.drw 0#4 0#4 1#4) (State.reset.setI 0x1000#16) with
      | .next _ => false | .fault f => f == .raised (.memoryRange 0x1000) | .refused _ => false) = true := by decide
theorem witness_NoStepChangesTheParameters : steps (placed 0x1200) (fun t => t.pc == 0x200#16) = true := by decide
theorem witness_RetReturnsToTheTopEntry :
    (State.reset.setStack [0x206#16, 0x302#16]).stack = [0x206#16] ++ [0x302#16] ∧ State.reset.stack = [] := by decide
theorem witness_CallPushesTheReturnAddress :
    State.reset.params.stackCapacity ≠ some State.reset.stack.length ∧
      ({ State.reset with params := { Params.simulator with stackCapacity := some 0 } } : State).params.stackCapacity =
        some State.reset.stack.length := by decide

/-- A call to 0x300, where a return stands. -/
def callThenRet : State := (placed 0x2300).setMem ((placed 0x2300).mem.write 0x301 0xEE#8)

theorem witness_ReturnGoesToTheWordAfterTheCall :
    callThenRet.runs (.call 0x300#12) ∧ (stepped callThenRet).status = .run ∧ (stepped callThenRet).runs .ret ∧
      steps (stepped callThenRet) (fun t => t.pc == 0x202#16) = true := by decide
theorem witness_SkipOnRegisters : (0 < 15 ∧ 15 < 16) ∧ (0x512F#16 : Word) =
    BitVec.ofNat 16 (0x5000 + (1#4 : RegNum).toNat * 256 + (2#4 : RegNum).toNat * 16 + 15) := by decide
theorem witness_RndMasksOneDraw :
    ({ Env.reset with draws := [0xA7#8] } : Env).draws = 0xA7#8 :: [] ∧ State.reset.env.draws = [] := by decide
theorem witness_DrwFlipsTheCoveredPixels :
    (State.reset.setI 0xFFF#16).i.toNat + (1#4 : RowCount).toNat ≤ 4096 ∧ (0#4 : RowCount).toNat = 0 ∧
      4096 < (State.reset.setI 0xFFF#16).i.toNat + (2#4 : RowCount).toNat := by decide
theorem witness_DrawingTwiceRestoresTheGrid :
    (0#4 : RegNum) ≠ vfNum ∧
    (match exec (.drw 0#4 1#4 1#4) State.reset with | .next _ => true | .fault _ => false | .refused _ => false) = true ∧
    (match exec (.drw 0#4 1#4 1#4) (executed (.drw 0#4 1#4 1#4) State.reset) with
      | .next u => u.grid == Grid.off && u.getV vfNum == 1#8 | .fault _ => false | .refused _ => false) = true := by decide
theorem witness_SkipOnKey :
    ((State.reset.setV 0#4 15#8).getV 0#4).toNat = (15 : Fin 16).val ∧
      16 ≤ ((State.reset.setV 0#4 16#8).getV 0#4).toNat := by decide
/-- For LdVxDtReadsTheDelayTimer, LdVxKEntersTheKeyWait and TimerWritesMeetTheSameCyclesTick. -/
theorem witness_timer_and_wait_runs :
    (placed 0xF307).runs (.ldVxDt 3#4) ∧ (placed 0xF20A).runs (.ldVxK 2#4) ∧ (placed 0xF015).runs (.ldDtVx 0#4) ∧
      (placed 0xF118).runs (.ldStVx 1#4) := by decide
theorem witness_LdBStoresTheDecimalDigits :
    (State.reset.setI 0xFFD#16).i.toNat + 2 < 4096 ∧ (State.reset.setI 0xFFD#16).mem.wf = true ∧
      4096 ≤ (State.reset.setI 0xFFE#16).i.toNat + 2 := by decide
/-- For LdIVxStoresTheRegisters and LdVxILoadsTheRegisters. -/
theorem witness_block_moves :
    (State.reset.setI 0xFF0#16).i.toNat + (15#4 : RegNum).toNat < 4096 ∧
      4096 ≤ (State.reset.setI 0xFF1#16).i.toNat + (15#4 : RegNum).toNat ∧
      (15#4 : RegNum).toNat ≤ (15#4 : RegNum).toNat := by decide
theorem witness_StoredRegistersLoadBack :
    State.reset.mem.wf = true ∧
    (match exec (.ldIVx 3#4) (State.reset.setI 0x300#16) with
      | .next _ => true | .fault _ => false | .refused _ => false) = true ∧
    ((executed (.ldIVx 3#4) (State.reset.setI 0x300#16)).setI 0x300#16).i = (State.reset.setI 0x300#16).i ∧
    (match exec (.ldVxI 3#4) ((executed (.ldIVx 3#4) (State.reset.setI 0x300#16)).setI 0x300#16) with
      | .next _ => true | .fault _ => false | .refused _ => false) = true := by decide

end Sys2Proof.Tests
end

section
/-! PROOFS. The step inverted in the terms the statements use: what the engine's turn fetches and runs
(spec/40_engine_cycle.md R65 to R75), and what becomes of memory (spec/20_memory.md R51). -/

namespace Sys2Proof.Machine

/-! ### The engine's turn -/

/-- The big-endian word of two bytes as a number (spec/20_memory.md R40). -/
theorem wordOfBytes_eq_ofNat (hi lo : Byte) : wordOfBytes hi lo = BitVec.ofNat 16 (hi.toNat * 256 + lo.toNat) := by
  apply BitVec.eq_of_toNat_eq
  have hlo := lo.isLt
  have hhi := hi.isLt
  rw [wordOfBytes, BitVec.toNat_append, ← Nat.shiftLeft_add_eq_or_of_lt hlo, Nat.shiftLeft_eq, BitVec.toNat_ofNat]
  omega

/-- A fetch answers a word exactly when both its bytes lie in memory, and then the word is `fetched`. -/
theorem fetch_ok_iff (s : State) (w : Word) : fetch s = .ok w ↔ s.pc.toNat + 1 < Config.memSize ∧ s.fetched = w := by
  unfold fetch
  split
  · next h => simp [(inRange_two_iff _).mp h, State.fetched, wordOfBytes_eq_ofNat]
  · next h => simp [mt (inRange_two_iff _).mpr h]

/-- Every next state of the engine's turn, told of the state before the turn is taken: a closed window, a waiting
cycle, a fault, or an instruction that ran to its end. -/
theorem engineTurn_cases (s t : State) (hturn : s.turn = .engine) (h : engineStep s.popAgenda = .next t) :
    s.status = .run ∧
    ((s.ports.windowOpen = false ∧ t = s.popAgenda.stop) ∨
     (s.cycleBegins ∧ ∃ r, s.mode = .waitingForKey r ∧ t = s.popAgenda.waitingCycle r) ∨
     (s.cycleBegins ∧ s.mode = .running ∧ ∃ f, t = s.popAgenda.takeFault f) ∨
     (∃ i u, s.runs i ∧ exec i s.executing = .next u ∧ t = u.service)) := by
  obtain ⟨hrun, hcase⟩ := engineStep_cases _ _ h
  refine ⟨hrun, ?_⟩
  obtain ⟨hw, ht⟩ | ⟨hw, r, hm, ht⟩ | ⟨hw, hm, f, ht⟩ | ⟨hw, hm, w, i, u, hf, hd, hu, ht⟩ := hcase
  · exact .inl ⟨hw, ht⟩
  · exact .inr (.inl ⟨⟨hturn, hrun, hw⟩, r, hm, ht⟩)
  · exact .inr (.inr (.inl ⟨⟨hturn, hrun, hw⟩, hm, f, ht⟩))
  · obtain ⟨hpc, rfl⟩ := (fetch_ok_iff _ _).mp hf
    exact .inr (.inr (.inr ⟨i, u, ⟨⟨⟨hturn, hrun, hw⟩, hm, hpc⟩, hd⟩, hu, ht⟩))

/-! ### Memory along a step -/

@[simp] theorem State.waitingCycle_mem (s : State) (r : RegNum) : (s.waitingCycle r).mem = s.mem := by
  unfold State.waitingCycle
  split <;> rfl

/-- An instruction that completes keeps memory as it is, unless it is FX33 or FX55. -/
theorem exec_mem_eq_or_isStore (i : Instr) (s u : State) (h : exec i s = .next u) :
    u.mem = s.mem ∨ ∃ x, i = .ldB x ∨ i = .ldIVx x := by
  cases i with
  | ldB x => exact .inr ⟨x, .inl rfl⟩
  | ldIVx x => exact .inr ⟨x, .inr rfl⟩
  | ret =>
    simp only [exec, execRet, pop_next] at h
    obtain ⟨w, -, hk⟩ := h
    cases hk
    exact .inl (by simp)
  | call nnn =>
    simp only [exec, execCall, push_next] at h
    obtain ⟨-, hk⟩ := h
    cases hk
    exact .inl (by simp)
  | skp x | sknp x =>
    simp only [exec, execSkp, execSknp, withKey_next] at h
    obtain ⟨-, hk⟩ := h
    cases hk
    exact .inl (by simp)
  | drw x y n | ldVxI x =>
    simp only [exec, execDrw, execLdVxI, checked_next] at h
    obtain ⟨-, hk⟩ := h
    cases hk
    exact .inl (by simp)
  | _ =>
    cases h
    exact .inl (by simp)

/-- A step keeps memory as it is, unless it runs FX33 or FX55. -/
theorem step_mem_eq_or_runsStore (s t : State) (h : step s = .next t) :
    t.mem = s.mem ∨ ∃ x, s.runs (.ldB x) ∨ s.runs (.ldIVx x) := by
  obtain ⟨hturn, he⟩ | ⟨-, rfl⟩ | ⟨-, rfl⟩ | ⟨k, -, rfl⟩ | ⟨-, rfl⟩ | ⟨b, -, rfl⟩ := step_cases s t h
  case inl =>
    obtain ⟨-, ⟨-, rfl⟩ | ⟨-, r, -, rfl⟩ | ⟨-, -, f, rfl⟩ | ⟨i, u, hruns, hu, rfl⟩⟩ := engineTurn_cases s t hturn he
    case inr.inr.inr =>
      obtain hmem | ⟨x, rfl | rfl⟩ := exec_mem_eq_or_isStore i s.executing u hu
      · exact .inl (by simp [hmem, State.executing])
      · exact .inr ⟨x, .inl hruns⟩
      · exact .inr ⟨x, .inr hruns⟩
    all_goals exact .inl (by simp)
  all_goals exact .inl (by simp)

/-- Settles O24: a step that runs neither FX33 nor FX55 keeps the whole memory, so every byte reads the same. -/
theorem onlyFx33AndFx55ChangeMemory : Obligations.OnlyFx33AndFx55ChangeMemory := by
  intro s t h ⟨a, hread⟩
  exact (step_mem_eq_or_runsStore s t h).resolve_left fun hmem => hread (by rw [hmem])

end Sys2Proof.Machine
end

section
/-! PROOFS. The waiting cycle: its scan of the key lines, its two outcomes and what both leave unchanged
(spec/40_engine_cycle.md R71). -/

namespace Sys2Proof.Machine

/-! ### The scan in terms of single key lines -/

theorem keyDown_eq_getElem (keys : KeyLines) (k : Fin 16) : keyDown keys k.val = keys[k] :=
  BitVec.getLsbD_eq_getElem k.isLt

/-- The scan finds the key whose line is 1 while every lower line is 0. -/
theorem scan_eq_some_of_least (keys : KeyLines) (k : Fin 16) (hk : keys[k] = true)
    (hlow : ∀ j : Fin 16, j < k → keys[j] = false) : scan keys = some k.val := by
  refine (scan_some keys k.val).mpr ⟨k.isLt, (keyDown_eq_getElem keys k).trans hk, fun j hj => ?_⟩
  exact (keyDown_eq_getElem keys ⟨j, hj.trans k.isLt⟩).trans (hlow _ hj)

theorem scan_eq_none_of_no_key (keys : KeyLines) (h : ∀ k : Fin 16, keys[k] = false) : scan keys = none :=
  (scan_none keys).mpr fun k hk => (keyDown_eq_getElem keys ⟨k, hk⟩).trans (h _)

/-! ### The waiting cycle -/

theorem State.waitingCycle_of_scan_some (s : State) (r : RegNum) (k : Nat) (h : scan s.ports.keys = some k) :
    s.waitingCycle r = ((s.setV r (BitVec.ofNat 8 k)).setMode .running).present := by
  simp only [State.waitingCycle, h]

theorem State.waitingCycle_of_scan_none (s : State) (r : RegNum) (h : scan s.ports.keys = none) :
    s.waitingCycle r = s.present := by
  simp only [State.waitingCycle, h]

/-- With a key down or none, only the registers, the mode and the presented frame can change. -/
theorem State.waitingCycle_frame (s : State) (r : RegNum) :
    s.waitingCycle r =
      { s with v := (s.waitingCycle r).v, mode := (s.waitingCycle r).mode,
               ports := { s.ports with frameOut := s.grid } } := by
  cases h : scan s.ports.keys with
  | none => rw [s.waitingCycle_of_scan_none r h]; rfl
  | some k => rw [s.waitingCycle_of_scan_some r k h]; rfl

/-- A cycle that begins in `WaitingForKey(r)` is a waiting cycle, never a fetch. -/
theorem step_of_waitingForKey (s : State) (r : RegNum) (hbegins : s.cycleBegins) (hmode : s.mode = .waitingForKey r) :
    step s = .next (s.popAgenda.waitingCycle r) := by
  obtain ⟨hturn, hrun, hopen⟩ := hbegins
  simp [step, engineStep, hturn, hrun, hopen, hmode]

/-- Settles O16: the scan decides between the two outcomes of the waiting cycle, and its frame does not depend on it. -/
theorem keyWaitCycle : Obligations.KeyWaitCycle := by
  intro s r hbegins hmode
  refine ⟨_, step_of_waitingForKey s r hbegins hmode, fun k hk hlow => ?_, fun hnone => ?_,
    s.popAgenda.waitingCycle_frame r⟩
  · have hscan : scan s.popAgenda.ports.keys = some k.val := scan_eq_some_of_least _ k hk hlow
    rw [State.waitingCycle_of_scan_some _ _ _ hscan]
    refine ⟨?_, fun q hq => ?_, rfl⟩
    · have hbyte : k.val < 256 := by omega
      simpa using hbyte
    · have hne : q ≠ r := by simpa using hq
      simp [State.getV_setV_other _ _ _ _ hne]
  · have hscan : scan s.popAgenda.ports.keys = none := scan_eq_none_of_no_key _ hnone
    rw [State.waitingCycle_of_scan_none _ _ hscan]
    exact ⟨rfl, rfl⟩

end Sys2Proof.Machine
end

section
/-! PROOFS. The words of the formats NNN, XNN and XYS: their value as a number, the fields read back from them
(spec/30_encoding.md R53, R54), and their decode in the families 0 to 5 and 9 (R56). -/

namespace Sys2Proof

/-! ### The formats as numbers -/

theorem formatNNN_eq_ofNat (op : BitVec 4) (nnn : Addr12) :
    formatNNN op nnn = BitVec.ofNat 16 (op.toNat * 4096 + nnn.toNat) := by
  apply BitVec.eq_of_toNat_eq
  have hnnn := nnn.isLt
  rw [formatNNN, BitVec.toNat_append, ← Nat.shiftLeft_add_eq_or_of_lt hnnn, Nat.shiftLeft_eq, BitVec.toNat_ofNat]
  omega

/-- Eight bits made of two digits, the first one the higher. -/
theorem toNat_append_digits (a b : BitVec 4) : (a ++ b : BitVec 8).toNat = a.toNat * 16 + b.toNat := by
  rw [BitVec.toNat_append, ← Nat.shiftLeft_add_eq_or_of_lt b.isLt, Nat.shiftLeft_eq]

theorem formatXNN_eq_ofNat (op : BitVec 4) (x : RegNum) (nn : Byte) :
    formatXNN op x nn = BitVec.ofNat 16 (op.toNat * 4096 + x.toNat * 256 + nn.toNat) := by
  have hbytes : formatXNN op x nn = BitVec.ofNat 16 ((op ++ x : BitVec 8).toNat * 256 + nn.toNat) :=
    Machine.wordOfBytes_eq_ofNat _ nn
  rw [hbytes, toNat_append_digits]
  exact congrArg (BitVec.ofNat 16) (by omega)

theorem formatXYS_eq_ofNat (op : BitVec 4) (x y : RegNum) (sub : BitVec 4) :
    formatXYS op x y sub = BitVec.ofNat 16 (op.toNat * 4096 + x.toNat * 256 + y.toNat * 16 + sub.toNat) := by
  have hbyte : formatXYS op x y sub = formatXNN op x (y ++ sub : BitVec 8) := rfl
  rw [hbyte, formatXNN_eq_ofNat, toNat_append_digits, Nat.add_assoc _ (y.toNat * 16)]

/-- The last digit given as a number. -/
theorem formatXYS_ofNat_eq_ofNat (op : BitVec 4) (x y : RegNum) (n : Nat) (h : n < 16) :
    formatXYS op x y (BitVec.ofNat 4 n) =
      BitVec.ofNat 16 (op.toNat * 4096 + x.toNat * 256 + y.toNat * 16 + n) := by
  rw [formatXYS_eq_ofNat, BitVec.toNat_ofNat, Nat.mod_eq_of_lt h]

/-! ### The fields of a format's word -/

@[simp] theorem opField_formatNNN (op : BitVec 4) (nnn : Addr12) : opField (formatNNN op nnn) = op :=
  BitVec.extractLsb'_append_eq_left

@[simp] theorem nnnField_formatNNN (op : BitVec 4) (nnn : Addr12) : nnnField (formatNNN op nnn) = nnn :=
  BitVec.extractLsb'_append_eq_right

@[simp] theorem opField_formatXNN (op : BitVec 4) (x : RegNum) (nn : Byte) : opField (formatXNN op x nn) = op := by
  rw [opField, formatXNN, BitVec.extractLsb'_append_eq_of_le (by decide)]
  exact BitVec.extractLsb'_append_eq_left

@[simp] theorem xField_formatXNN (op : BitVec 4) (x : RegNum) (nn : Byte) : xField (formatXNN op x nn) = x := by
  rw [xField, formatXNN, BitVec.extractLsb'_append_eq_of_le (by decide)]
  exact BitVec.extractLsb'_append_eq_right

@[simp] theorem nnField_formatXNN (op : BitVec 4) (x : RegNum) (nn : Byte) : nnField (formatXNN op x nn) = nn :=
  BitVec.extractLsb'_append_eq_right

@[simp] theorem opField_formatXYS (op : BitVec 4) (x y : RegNum) (sub : BitVec 4) :
    opField (formatXYS op x y sub) = op :=
  opField_formatXNN op x (y ++ sub)

@[simp] theorem xField_formatXYS (op : BitVec 4) (x y : RegNum) (sub : BitVec 4) :
    xField (formatXYS op x y sub) = x :=
  xField_formatXNN op x (y ++ sub)

@[simp] theorem yField_formatXYS (op : BitVec 4) (x y : RegNum) (sub : BitVec 4) :
    yField (formatXYS op x y sub) = y := by
  rw [yField, formatXYS, BitVec.extractLsb'_append_eq_of_add_le (by decide)]
  exact BitVec.extractLsb'_append_eq_left

@[simp] theorem nField_formatXYS (op : BitVec 4) (x y : RegNum) (sub : BitVec 4) :
    nField (formatXYS op x y sub) = sub := by
  rw [nField, formatXYS, BitVec.extractLsb'_append_eq_of_add_le (by decide)]
  exact BitVec.extractLsb'_append_eq_right

/-! ### The decode of a format's word -/

theorem decodeWord_jp (nnn : Addr12) : decodeWord (formatNNN 0x1#4 nnn) = .ok (.jp nnn) := by
  simp [decodeWord]

theorem decodeWord_call (nnn : Addr12) : decodeWord (formatNNN 0x2#4 nnn) = .ok (.call nnn) := by
  simp [decodeWord]

theorem decodeWord_seImm (x : RegNum) (nn : Byte) : decodeWord (formatXNN 0x3#4 x nn) = .ok (.seImm x nn) := by
  simp [decodeWord]

theorem decodeWord_sneImm (x : RegNum) (nn : Byte) : decodeWord (formatXNN 0x4#4 x nn) = .ok (.sneImm x nn) := by
  simp [decodeWord]

/-- Family 5: the low digit decides between the instruction and the rejection. -/
theorem decodeWord_family5 (x y : RegNum) (sub : BitVec 4) :
    decodeWord (formatXYS 0x5#4 x y sub) =
      if sub = 0#4 then .ok (.seReg x y) else .error (.illegalInstruction (formatXYS 0x5#4 x y sub)) := by
  simp [decodeWord, decodeXY0]

/-- Family 9: the low digit decides between the instruction and the rejection. -/
theorem decodeWord_family9 (x y : RegNum) (sub : BitVec 4) :
    decodeWord (formatXYS 0x9#4 x y sub) =
      if sub = 0#4 then .ok (.sneReg x y) else .error (.illegalInstruction (formatXYS 0x9#4 x y sub)) := by
  simp [decodeWord, decodeXY0]

end Sys2Proof
end

section
/-! PROOFS. The instructions of the families 0 to 5 and 9XY0 (spec/41_family_0_to_5.md, spec/42_family_6_to_9.md R99):
the stack operations by the stack they meet, and what a skip does to `PC`. -/

namespace Sys2Proof.Machine

/-! ### Push and pop by the stack they meet -/

theorem pop_of_concat (s : State) (k : Word → State → Out) (l : List Word) (w : Word) (h : s.stack = l ++ [w]) :
    pop s k = k w (s.setStack l) := by
  simp [pop, h]

theorem pop_of_nil (s : State) (k : Word → State → Out) (h : s.stack = []) : pop s k = raise .stackUnderflow := by
  simp [pop, h]

/-- The stack is full exactly at the equality of R21, so never when the capacity is unbounded. -/
theorem State.stackFull_iff (s : State) : s.stackFull = true ↔ s.params.stackCapacity = some s.stack.length :=
  beq_iff_eq

theorem push_of_not_stackFull (s : State) (w : Word) (k : State → Out) (h : ¬ s.stackFull = true) :
    push s w k = k (s.setStack (s.stack ++ [w])) :=
  if_neg h

theorem push_of_stackFull (s : State) (w : Word) (k : State → Out) (h : s.stackFull = true) :
    push s w k = raise (.stackOverflow s.stack.length) :=
  if_pos h

theorem exec_ret (s : State) : exec .ret s = pop s fun w t => .next (t.setPc w) := rfl

theorem exec_call (nnn : Addr12) (s : State) :
    exec (.call nnn) s = push s s.pc fun t => .next (t.setPc (zextAddr nnn)) := rfl

/-! ### Jump targets and skips -/

theorem toNat_zextAddr (nnn : Addr12) : (zextAddr nnn).toNat = nnn.toNat :=
  BitVec.toNat_setWidth_of_le (by decide)

/-- A skip that may be taken touches `PC` only. -/
theorem State.skipIf_frame (s : State) (c : Bool) : s.skipIf c = { s with pc := (s.skipIf c).pc } := by
  cases c <;> rfl

/-- `PC` after a skip that may be taken: two further mod 65536, or unchanged (spec/41_family_0_to_5.md R79). -/
theorem State.skipIf_pc_toNat (s : State) (c : Bool) :
    (s.skipIf c).pc.toNat = if c then (s.pc.toNat + 2) % 65536 else s.pc.toNat := by
  cases c
  · rfl
  · exact BitVec.toNat_add s.pc 2#16

/-- The skip on equal operands, of 3XNN and 5XY0. -/
theorem State.skipIf_beq_pc_toNat (s : State) (a b : Byte) :
    (s.skipIf (a == b)).pc.toNat = if a.toNat = b.toNat then (s.pc.toNat + 2) % 65536 else s.pc.toNat := by
  simp [s.skipIf_pc_toNat, BitVec.toNat_inj]

/-- The skip on different operands, of 4XNN and 9XY0. -/
theorem State.skipIf_bne_pc_toNat (s : State) (a b : Byte) :
    (s.skipIf (a != b)).pc.toNat = if a.toNat = b.toNat then s.pc.toNat else (s.pc.toNat + 2) % 65536 := by
  simp [s.skipIf_pc_toNat, BitVec.toNat_inj]

/-! ### The statements -/

/-- Settles O33: CLS replaces the grid by the one with every pixel off. -/
theorem clsTurnsEveryPixelOff : Obligations.ClsTurnsEveryPixelOff :=
  ⟨by decide, fun s => ⟨s.setGrid Grid.off, rfl, Grid.pixel_off, rfl⟩⟩

/-- Settles O34, by what a pop does with a top entry and with an empty stack. -/
theorem retReturnsToTheTopEntry : Obligations.RetReturnsToTheTopEntry := by
  refine ⟨by decide, fun s => ⟨fun l w htop => ?_, fun hempty => ?_⟩⟩
  · rw [exec_ret, pop_of_concat s _ l w htop]
    exact ⟨_, rfl, rfl, rfl, rfl⟩
  · rw [exec_ret, pop_of_nil s _ hempty]
    rfl

/-- Settles O35: the target is the zero-extended address. -/
theorem jpJumpsToTheAddress : Obligations.JpJumpsToTheAddress := by
  refine fun nnn => ⟨?_, fun s => ⟨s.setPc (zextAddr nnn), rfl, toNat_zextAddr nnn, rfl⟩⟩
  exact formatNNN_eq_ofNat 0x1#4 nnn ▸ decodeWord_jp nnn

/-- Settles O36, by what a push does with room on the stack and at STACK_CAPACITY. -/
theorem callPushesTheReturnAddress : Obligations.CallPushesTheReturnAddress := by
  refine fun nnn => ⟨?_, fun s => ⟨fun hroom => ?_, fun hfull => ?_⟩⟩
  · exact formatNNN_eq_ofNat 0x2#4 nnn ▸ decodeWord_call nnn
  · rw [exec_call, push_of_not_stackFull s _ _ (mt s.stackFull_iff.mp hroom)]
    exact ⟨_, rfl, rfl, toNat_zextAddr nnn, rfl⟩
  · rw [exec_call, push_of_stackFull s _ _ (s.stackFull_iff.mpr hfull)]
    rfl

/-- Settles O38: both skips compare VX with NN. -/
theorem skipOnImmediate : Obligations.SkipOnImmediate := by
  refine fun x nn => ⟨?_, ?_, fun s => ⟨?_, ?_⟩⟩
  · exact formatXNN_eq_ofNat 0x3#4 x nn ▸ decodeWord_seImm x nn
  · exact formatXNN_eq_ofNat 0x4#4 x nn ▸ decodeWord_sneImm x nn
  · exact ⟨_, rfl, s.skipIf_beq_pc_toNat (s.getV x) nn, s.skipIf_frame _⟩
  · exact ⟨_, rfl, s.skipIf_bne_pc_toNat (s.getV x) nn, s.skipIf_frame _⟩

/-- Settles O39: both skips compare VX with VY, and their words share the decode that wants a low digit of 0. -/
theorem skipOnRegisters : Obligations.SkipOnRegisters := by
  refine fun x y => ⟨?_, ?_, fun n hpos hlt w hw => ?_, fun s => ⟨?_, ?_⟩⟩
  · exact formatXYS_eq_ofNat 0x5#4 x y 0#4 ▸ decodeWord_family5 x y 0#4
  · exact formatXYS_eq_ofNat 0x9#4 x y 0#4 ▸ decodeWord_family9 x y 0#4
  · have hval : (BitVec.ofNat 4 n).toNat = n := Nat.mod_eq_of_lt hlt
    have hsub : BitVec.ofNat 4 n ≠ 0#4 := fun h => hpos.ne' (hval.symm.trans (congrArg BitVec.toNat h))
    obtain rfl | rfl := hw
    · exact formatXYS_ofNat_eq_ofNat 0x5#4 x y n hlt ▸ (decodeWord_family5 x y _).trans (if_neg hsub)
    · exact formatXYS_ofNat_eq_ofNat 0x9#4 x y n hlt ▸ (decodeWord_family9 x y _).trans (if_neg hsub)
  · exact ⟨_, rfl, s.skipIf_beq_pc_toNat (s.getV x) (s.getV y), s.skipIf_frame _⟩
  · exact ⟨_, rfl, s.skipIf_bne_pc_toNat (s.getV x) (s.getV y), s.skipIf_frame _⟩

end Sys2Proof.Machine
end

section
/-! PROOFS. The instructions 6XNN, 7XNN, 8XY0, 8XY4 to 8XY7 and 8XYE (spec/42_family_6_to_9.md): the decode of family 8,
what a register write and a result-and-flag write leave unchanged (R87), and the values of results and flags as numbers
(R94 to R98). -/

namespace Sys2Proof.Machine

/-! ### The decode of 6XNN, 7XNN and family 8 -/

theorem decodeWord_ldImm (x : RegNum) (nn : Byte) : decodeWord (formatXNN 0x6#4 x nn) = .ok (.ldImm x nn) := by
  simp [decodeWord]

theorem decodeWord_addImm (x : RegNum) (nn : Byte) : decodeWord (formatXNN 0x7#4 x nn) = .ok (.addImm x nn) := by
  simp [decodeWord]

/-- Family 8, its words as the statements write them: the sub-opcode added to the family's number (R56). -/
theorem decodeWord_family8 (x y : RegNum) (sub : BitVec 4) :
    decodeWord (BitVec.ofNat 16 (0x8000 + sub.toNat + x.toNat * 256 + y.toNat * 16)) =
      decodeFamily8 (formatXYS 0x8#4 x y sub) := by
  have hword : BitVec.ofNat 16 (0x8000 + sub.toNat + x.toNat * 256 + y.toNat * 16) = formatXYS 0x8#4 x y sub := by
    have hop : (0x8#4).toNat = 8 := rfl
    rw [formatXYS_eq_ofNat, hop]
    exact congrArg (BitVec.ofNat 16) (by omega)
  simp [hword, decodeWord]

theorem decodeFamily8_ldReg (x y : RegNum) : decodeFamily8 (formatXYS 0x8#4 x y 0x0#4) = .ok (.ldReg x y) := by
  simp [decodeFamily8]

theorem decodeFamily8_addReg (x y : RegNum) : decodeFamily8 (formatXYS 0x8#4 x y 0x4#4) = .ok (.addReg x y) := by
  simp [decodeFamily8]

theorem decodeFamily8_sub (x y : RegNum) : decodeFamily8 (formatXYS 0x8#4 x y 0x5#4) = .ok (.sub x y) := by
  simp [decodeFamily8]

theorem decodeFamily8_shr (x y : RegNum) : decodeFamily8 (formatXYS 0x8#4 x y 0x6#4) = .ok (.shr x y) := by
  simp [decodeFamily8]

theorem decodeFamily8_subn (x y : RegNum) : decodeFamily8 (formatXYS 0x8#4 x y 0x7#4) = .ok (.subn x y) := by
  simp [decodeFamily8]

theorem decodeFamily8_shl (x y : RegNum) : decodeFamily8 (formatXYS 0x8#4 x y 0xE#4) = .ok (.shl x y) := by
  simp [decodeFamily8]

/-! ### The register writes -/

theorem State.setV_regsKept (s : State) (x : RegNum) (b : Byte) : s.regsKept (s.setV x b) [x] :=
  fun r hr => s.getV_setV_other x r b (List.ne_of_not_mem_cons hr)

/-- Both orders of the two writes touch registers only. -/
theorem State.writeRF_frame (s : State) (x : RegNum) (b : Byte) (c : Bool) :
    s.writeRF x b c = { s with v := (s.writeRF x b c).v } := by
  unfold State.writeRF
  split <;> rfl

/-- Both orders of the two writes touch `VX` and `VF` only. -/
theorem State.writeRF_regsKept (s : State) (x : RegNum) (b : Byte) (c : Bool) :
    s.regsKept (s.writeRF x b c) [x, vfNum] := by
  intro r hr
  have hx : r ≠ x := List.ne_of_not_mem_cons hr
  have hvf : r ≠ vfNum := List.ne_of_not_mem_cons (List.not_mem_of_not_mem_cons hr)
  by_cases hdest : x = vfNum
  · rw [hdest, s.getV_writeRF_vf r b c, if_neg hvf]
  · rw [s.getV_writeRF x r b c hdest, if_neg hx, if_neg hvf]

/-- What `writeRF` leaves, given the result and the flag as numbers. -/
theorem State.writeRF_resultAndFlag (s : State) (x : RegNum) {b : Byte} {c : Bool} {r f : Nat}
    (hr : b.toNat = r) (hf : (flagByte c).toNat = f) : s.resultAndFlag (s.writeRF x b c) x r f := by
  subst hr hf
  refine ⟨fun hx => ?_, fun hx => ?_, s.writeRF_regsKept x b c, s.writeRF_frame x b c⟩
  · rw [s.getV_writeRF x x b c hx, s.getV_writeRF x vfNum b c hx, if_pos rfl, if_neg hx.symm, if_pos rfl]
    exact ⟨rfl, rfl⟩
  · subst hx
    rw [s.getV_writeRF_vf vfNum b c, if_pos rfl]
    cases s.params.vfOrder <;> rfl

/-! ### Results and flags as numbers -/

/-- A difference mod 256 without a negative number (R95, R97). -/
theorem toNat_sub_byte (a b : Byte) : (a - b).toNat = (a.toNat + 256 - b.toNat) % 256 := by
  have hb := b.isLt
  have hdiff : 2 ^ 8 - b.toNat + a.toNat = a.toNat + 256 - b.toNat := by omega
  rw [BitVec.toNat_sub, hdiff]

theorem toNat_shiftLeft_one (b : Byte) : (b <<< 1).toNat = b.toNat * 2 % 256 := by
  rw [BitVec.toNat_shiftLeft, Nat.shiftLeft_eq]

theorem toNat_flagByte_carry (a b : Byte) :
    (flagByte (carry a b)).toNat = if 256 ≤ a.toNat + b.toNat then 1 else 0 := by
  simp [flagByte_toNat, carry]

theorem toNat_flagByte_noBorrow (a b : Byte) :
    (flagByte (noBorrow a b)).toNat = if b.toNat ≤ a.toNat then 1 else 0 := by
  simp [flagByte_toNat, noBorrow]

/-- A bit of a byte as a flag: the digit of the byte at that place. -/
theorem toNat_flagByte_getLsbD (b : Byte) (k : Nat) : (flagByte (b.getLsbD k)).toNat = b.toNat / 2 ^ k % 2 := by
  have hbool (c : Bool) : (flagByte c).toNat = c.toNat := by cases c <;> rfl
  rw [hbool]
  exact Nat.toNat_testBit b.toNat k

theorem toNat_flagByte_lowBit (b : Byte) : (flagByte (lowBit b)).toNat = b.toNat % 2 := by
  rw [lowBit, toNat_flagByte_getLsbD, Nat.pow_zero, Nat.div_one]

/-- Bit 7 is the highest, so no remainder is taken of the quotient. -/
theorem toNat_flagByte_highBit (b : Byte) : (flagByte (highBit b)).toNat = b.toNat / 128 := by
  have hb := b.isLt
  rw [highBit, toNat_flagByte_getLsbD]
  omega

/-! ### The statements -/

/-- Settles O40: each of the three writes VX once and nothing else. -/
theorem loadsAndAddImmediate : Obligations.LoadsAndAddImmediate := by
  refine fun x y nn => ⟨?_, ?_, ?_, fun s => ⟨?_, ?_, ?_⟩⟩
  · exact formatXNN_eq_ofNat 0x6#4 x nn ▸ decodeWord_ldImm x nn
  · exact formatXNN_eq_ofNat 0x7#4 x nn ▸ decodeWord_addImm x nn
  · exact (decodeWord_family8 x y 0x0#4).trans (decodeFamily8_ldReg x y)
  · exact ⟨_, rfl, s.getV_setV_same x nn, s.setV_regsKept x nn, rfl⟩
  · have hsum : ((s.setV x (s.getV x + nn)).getV x).toNat = ((s.getV x).toNat + nn.toNat) % 256 := by
      rw [s.getV_setV_same, BitVec.toNat_add]
    exact ⟨_, rfl, hsum, s.setV_regsKept x _, rfl⟩
  · exact ⟨_, rfl, s.getV_setV_same x _, s.setV_regsKept x _, rfl⟩

/-- Settles O42: the write of the sum and the carry. -/
theorem addSetsCarry : Obligations.AddSetsCarry := by
  refine fun x y => ⟨(decodeWord_family8 x y 0x4#4).trans (decodeFamily8_addReg x y), fun s => ⟨_, rfl, ?_⟩⟩
  exact s.writeRF_resultAndFlag x (BitVec.toNat_add _ _) (toNat_flagByte_carry _ _)

/-- Settles O43: the write of VX - VY and of its no-borrow. -/
theorem subSetsNoBorrow : Obligations.SubSetsNoBorrow := by
  refine fun x y => ⟨(decodeWord_family8 x y 0x5#4).trans (decodeFamily8_sub x y), fun s => ⟨_, rfl, ?_⟩⟩
  exact s.writeRF_resultAndFlag x (toNat_sub_byte _ _) (toNat_flagByte_noBorrow _ _)

/-- Settles O44: the write of VY - VX and of its no-borrow. -/
theorem subnSetsNoBorrow : Obligations.SubnSetsNoBorrow := by
  refine fun x y => ⟨(decodeWord_family8 x y 0x7#4).trans (decodeFamily8_subn x y), fun s => ⟨_, rfl, ?_⟩⟩
  exact s.writeRF_resultAndFlag x (toNat_sub_byte _ _) (toNat_flagByte_noBorrow _ _)

/-- Settles O45: the write of VY shifted right and of the bit shifted out. -/
theorem shrShiftsVyRight : Obligations.ShrShiftsVyRight := by
  refine fun x y => ⟨(decodeWord_family8 x y 0x6#4).trans (decodeFamily8_shr x y), fun s => ⟨_, rfl, ?_⟩⟩
  exact s.writeRF_resultAndFlag x (BitVec.toNat_ushiftRight _ 1) (toNat_flagByte_lowBit _)

/-- Settles O46: the write of VY shifted left and of the bit shifted out. -/
theorem shlShiftsVyLeft : Obligations.ShlShiftsVyLeft := by
  refine fun x y => ⟨(decodeWord_family8 x y 0xE#4).trans (decodeFamily8_shl x y), fun s => ⟨_, rfl, ?_⟩⟩
  exact s.writeRF_resultAndFlag x (toNat_shiftLeft_one _) (toNat_flagByte_highBit _)

end Sys2Proof.Machine
end

section
/-! PROOFS. The instructions ANNN and BNNN (spec/43_family_A_to_D.md R101, R102): their decode, and the indexed target
as a number. -/

namespace Sys2Proof.Machine

/-! ### The decode of ANNN and BNNN -/

theorem decodeWord_ldI (nnn : Addr12) : decodeWord (formatNNN 0xA#4 nnn) = .ok (.ldI nnn) := by
  simp [decodeWord]

theorem decodeWord_jpV0 (nnn : Addr12) : decodeWord (formatNNN 0xB#4 nnn) = .ok (.jpV0 nnn) := by
  simp [decodeWord]

/-! ### The indexed target -/

theorem toNat_zextByte (b : Byte) : (zextByte b).toNat = b.toNat :=
  BitVec.toNat_setWidth_of_le (by decide)

/-- An address of 12 bits and a byte are too small for their sum to wrap in a word of 16 bits. -/
theorem toNat_indexedTarget (nnn : Addr12) (v0 : Byte) : (indexedTarget nnn v0).toNat = nnn.toNat + v0.toNat := by
  have hnnn := nnn.isLt
  have hv0 := v0.isLt
  rw [indexedTarget, BitVec.toNat_add, toNat_zextAddr, toNat_zextByte]
  exact Nat.mod_eq_of_lt (by omega)

/-! ### The statement -/

/-- Settles O47: one write of I with the zero-extended address, and one of PC with the indexed target. -/
theorem loadIndexAndIndexedJump : Obligations.LoadIndexAndIndexedJump := by
  refine fun nnn => ⟨?_, ?_, fun s => ⟨?_, ?_⟩⟩
  · exact formatNNN_eq_ofNat 0xA#4 nnn ▸ decodeWord_ldI nnn
  · exact formatNNN_eq_ofNat 0xB#4 nnn ▸ decodeWord_jpV0 nnn
  · exact ⟨s.setI (zextAddr nnn), rfl, toNat_zextAddr nnn, rfl⟩
  · exact ⟨s.setPc (indexedTarget nnn (s.getV 0#4)), rfl, toNat_indexedTarget nnn (s.getV 0#4), rfl⟩

end Sys2Proof.Machine
end

section
/-! PROOFS. The instruction FX07 (spec/44_family_E_F.md R113): the decode of family F, and the step that runs an
instruction to its end. -/

namespace Sys2Proof.Machine

/-! ### The decode of family F -/

/-- Family F, its words as the statements write them: the function byte added to the family's number (R56). -/
theorem decodeWord_familyF (x : RegNum) (f : Byte) :
    decodeWord (BitVec.ofNat 16 (0xF000 + f.toNat + x.toNat * 256)) = decodeFamilyF (formatXNN 0xF#4 x f) := by
  have hword : BitVec.ofNat 16 (0xF000 + f.toNat + x.toNat * 256) = formatXNN 0xF#4 x f := by
    have hop : (0xF#4).toNat = 15 := rfl
    rw [formatXNN_eq_ofNat, hop]
    exact congrArg (BitVec.ofNat 16) (by omega)
  simp [hword, decodeWord]

theorem decodeFamilyF_ldVxDt (x : RegNum) : decodeFamilyF (formatXNN 0xF#4 x 0x07#8) = .ok (.ldVxDt x) := by
  simp [decodeFamilyF]

/-! ### The step that runs an instruction -/

/-- An instruction that completes ends its step with service, so the tick poll sees what it wrote (R66, R70). -/
theorem step_of_runs (s u : State) (i : Instr) (hruns : s.runs i) (hexec : exec i s.executing = .next u) :
    step s = .next u.service := by
  obtain ⟨⟨⟨hturn, hrun, hopen⟩, hmode, hpc⟩, hdecode⟩ := hruns
  have hfetch : fetch s.popAgenda = .ok s.fetched := (fetch_ok_iff s.popAgenda s.fetched).mpr ⟨hpc, rfl⟩
  have hword : executeWord s.popAgenda s.fetched = .next u := by
    simp only [executeWord, hdecode]
    exact hexec
  simp [step, engineStep, runningCycle, finish, hturn, hrun, hopen, hmode, hfetch, hword]

/-! ### The statement -/

theorem exec_ldVxDt (x : RegNum) (s : State) : exec (.ldVxDt x) s = .next (s.setV x s.dt) := rfl

/-- Settles O52: `DT` is copied before service, and service keeps the registers. -/
theorem ldVxDtReadsTheDelayTimer : Obligations.LdVxDtReadsTheDelayTimer := by
  refine fun x => ⟨?_, fun s => ⟨?_, fun hruns => ?_⟩⟩
  · exact (decodeWord_familyF x 0x07#8).trans (decodeFamilyF_ldVxDt x)
  · exact ⟨_, exec_ldVxDt x s, s.getV_setV_same x s.dt, s.setV_regsKept x s.dt, rfl⟩
  · refine ⟨_, step_of_runs s _ _ hruns (exec_ldVxDt x s.executing), ?_⟩
    rw [State.service_getV, State.getV_setV_same]
    rfl

end Sys2Proof.Machine
end

section
/-! PROOFS. The tick poll: what it does to pending ticks and the two timers, and that only the service of a Running cycle
polls (spec/60_exceptions.md R136; spec/40_engine_cycle.md R70, R71). -/

namespace Sys2Proof.Machine

/-! ### The poll -/

/-- `satdec` is the truncated predecessor (spec/10_state.md R24). -/
@[simp] theorem toNat_satdec (t : Byte) : (satdec t).toNat = t.toNat - 1 := by
  unfold satdec
  split
  · next h => simp [h]
  · next h => bv_omega

theorem State.pollTick_of_no_tick (s : State) (h : s.pendingTicks = 0) : s.pollTick = s :=
  if_pos h

theorem State.pollTick_of_tick (s : State) (h : 0 < s.pendingTicks) :
    s.pollTick = { s with pendingTicks := s.pendingTicks - 1, dt := satdec s.dt, st := satdec s.st } :=
  if_neg (Nat.ne_of_gt h)

/-! ### Pending ticks and the timers over a cycle -/

/-- No instruction takes a tick: its own part of the cycle ends with the pending ticks it began with. -/
theorem exec_pendingTicks (i : Instr) (s t : State) (h : exec i s = .next t) : t.pendingTicks = s.pendingTicks := by
  obtain ⟨u, hu, -, -, hticks, -⟩ | ⟨f, hf⟩ := exec_cases i s
  · cases h.symm.trans hu
    exact hticks
  · cases h.symm.trans hf

/-- The waiting cycle does not poll: pending ticks and both timers stay (R71). -/
theorem State.waitingCycle_ticks (s : State) (r : RegNum) :
    (s.waitingCycle r).pendingTicks = s.pendingTicks ∧ (s.waitingCycle r).dt = s.dt ∧ (s.waitingCycle r).st = s.st := by
  rw [s.waitingCycle_frame r]
  exact ⟨rfl, rfl, rfl⟩

/-- Settles O8: a Running cycle polls once, in its service, and the instruction before it leaves the pending ticks as the
cycle found them; a waiting cycle has no service. -/
theorem runningCycleConsumesAtMostOneTick : Obligations.RunningCycleConsumesAtMostOneTick := by
  refine ⟨fun s t i hruns hexec => ?_, fun s r hbegins hmode => ?_⟩
  · have hticks : t.pendingTicks = s.pendingTicks := exec_pendingTicks i s.executing t hexec
    refine ⟨_, step_of_runs s t i hruns hexec, fun hpos => ?_, fun hzero => ?_⟩
    · rw [← hticks] at hpos ⊢
      simp [t.pollTick_of_tick hpos, Nat.sub_add_cancel hpos]
    · rw [← hticks] at hzero
      simp [t.pollTick_of_no_tick hzero, hzero]
  · exact ⟨_, step_of_waitingForKey s r hbegins hmode, s.popAgenda.waitingCycle_ticks r⟩

end Sys2Proof.Machine
end


section
/-! PROOFS. The round trip between instructions and words (spec/30_encoding.md R52 to R58): a word from its fields, the
decode of an encoded instruction, the encoding of a decoded word. -/

namespace Sys2Proof

/-! ### A word and its fields -/

/-- The format XFF is XNN with a fixed low byte. -/
@[simp] theorem formatXFF_eq_formatXNN (op : BitVec 4) (x : RegNum) (f : Byte) : formatXFF op x f = formatXNN op x f :=
  rfl

/-- The format XYN is XYS with a free low digit. -/
@[simp] theorem formatXYN_eq_formatXYS (op : BitVec 4) (x y : RegNum) (n : RowCount) :
    formatXYN op x y n = formatXYS op x y n :=
  rfl

theorem wordOfBytes_highByte_lowByte (w : Word) : wordOfBytes (highByte w) (lowByte w) = w :=
  BitVec.extractLsb'_append_extractLsb'_eq_extractLsb' (x := w) rfl |>.trans BitVec.extractLsb'_eq_self

theorem formatNNN_fields (w : Word) : formatNNN (opField w) (nnnField w) = w :=
  BitVec.extractLsb'_append_extractLsb'_eq_extractLsb' (x := w) rfl |>.trans BitVec.extractLsb'_eq_self

theorem formatXNN_fields (w : Word) : formatXNN (opField w) (xField w) (nnField w) = w := by
  have hhigh : (opField w ++ xField w : BitVec 8) = highByte w :=
    BitVec.extractLsb'_append_extractLsb'_eq_extractLsb' rfl
  rw [formatXNN, hhigh]
  exact wordOfBytes_highByte_lowByte w

theorem formatXYS_fields (w : Word) : formatXYS (opField w) (xField w) (yField w) (nField w) = w := by
  have hlow : (yField w ++ nField w : BitVec 8) = nnField w :=
    BitVec.extractLsb'_append_extractLsb'_eq_extractLsb' rfl
  rw [formatXYS, hlow]
  exact formatXNN_fields w

/-! ### Decode of encode -/

theorem decodeWord_encode (i : Instr) : decodeWord (encode i) = .ok i := by
  cases i with
  | cls | ret => decide
  | jp nnn | call nnn | ldI nnn | jpV0 nnn => simp [encode, decodeWord]
  | seImm x nn | sneImm x nn | ldImm x nn | addImm x nn | rnd x nn => simp [encode, decodeWord]
  | seReg x y | sneReg x y => simp [encode, decodeWord, decodeXY0]
  | ldReg x y | orReg x y | andReg x y | xorReg x y | addReg x y | sub x y | shr x y | subn x y | shl x y =>
    simp [encode, decodeWord, decodeFamily8]
  | drw x y n => simp [encode, decodeWord]
  | skp x | sknp x => simp [encode, decodeWord, decodeFamilyE]
  | ldVxDt x | ldVxK x | ldDtVx x | ldStVx x | addI x | ldF x | ldB x | ldIVx x | ldVxI x =>
    simp [encode, decodeWord, decodeFamilyF]

/-- Two big-endian bytes decode as their word and leave what follows. -/
theorem decodeBytes_of_word (w : Word) (i : Instr) (rest : List Byte) (h : decodeWord w = .ok i) :
    decodeBytes (highByte w :: lowByte w :: rest) = .ok (i, rest) := by
  simp only [decodeBytes, wordOfBytes_highByte_lowByte, h]

/-- Settles O1: the twelve words, evaluated. -/
theorem specWordsDecode : Obligations.SpecWordsDecode := by
  unfold Obligations.SpecWordsDecode
  decide

/-- Settles O2: each format's fields read back, and each family's digits select its instruction. -/
theorem decodeOfEncodeIsTheInstruction : Obligations.DecodeOfEncodeIsTheInstruction :=
  fun i rest => ⟨decodeWord_encode i, decodeBytes_of_word (encode i) i rest (decodeWord_encode i)⟩

/-! ### Encode of decode -/

theorem formatNNN_nnnField (w : Word) (op : BitVec 4) (hop : opField w = op) : formatNNN op (nnnField w) = w :=
  hop ▸ formatNNN_fields w

theorem formatXNN_xField (w : Word) (op : BitVec 4) (nn : Byte) (hop : opField w = op) (hnn : nnField w = nn) :
    formatXNN op (xField w) nn = w :=
  hop ▸ hnn ▸ formatXNN_fields w

theorem formatXYS_xField_yField (w : Word) (op n : BitVec 4) (hop : opField w = op) (hn : nField w = n) :
    formatXYS op (xField w) (yField w) n = w :=
  hop ▸ hn ▸ formatXYS_fields w

theorem encode_of_decodeXY0 (w : Word) (op : BitVec 4) (hop : opField w = op) (mk : RegNum → RegNum → Instr)
    (hmk : ∀ x y, encode (mk x y) = formatXYS op x y 0#4) (i : Instr) (h : decodeXY0 w mk = .ok i) :
    encode i = w := by
  unfold decodeXY0 at h
  split at h
  · next hn =>
    cases h
    exact (hmk _ _).trans (formatXYS_xField_yField w op 0#4 hop hn)
  · cases h

theorem encode_of_decodeFamily8 (w : Word) (hop : opField w = 0x8#4) (i : Instr) (h : decodeFamily8 w = .ok i) :
    encode i = w := by
  unfold decodeFamily8 at h
  split at h <;> cases h
  all_goals
    next hn => exact formatXYS_xField_yField w _ _ hop hn

theorem encode_of_decodeFamilyE (w : Word) (hop : opField w = 0xE#4) (i : Instr) (h : decodeFamilyE w = .ok i) :
    encode i = w := by
  unfold decodeFamilyE at h
  split at h <;> cases h
  all_goals
    next hnn => exact formatXNN_xField w _ _ hop hnn

theorem encode_of_decodeFamilyF (w : Word) (hop : opField w = 0xF#4) (i : Instr) (h : decodeFamilyF w = .ok i) :
    encode i = w := by
  unfold decodeFamilyF at h
  split at h <;> cases h
  all_goals
    next hnn => exact formatXNN_xField w _ _ hop hnn

theorem encode_of_decodeFamily0 (w : Word) (i : Instr) (h : decodeFamily0 w = .ok i) : encode i = w := by
  unfold decodeFamily0 at h
  split at h
  · next hw => cases h; exact hw.symm
  · split at h
    · next hw => cases h; exact hw.symm
    · cases h

/-- Settles O3, family by family: the arm that answers has fixed the digits that its format does not carry. The arms stand
in the order of the family digit, so `h_1` is family 0 and `h_16` family F. -/
theorem encodeOfDecodeIsTheWord : Obligations.EncodeOfDecodeIsTheWord := by
  intro w i h
  unfold decodeWord at h
  split at h
  case h_1 => exact encode_of_decodeFamily0 w i h
  case h_6 hop => exact encode_of_decodeXY0 w _ hop .seReg (fun _ _ => rfl) i h
  case h_9 hop => exact encode_of_decodeFamily8 w hop i h
  case h_10 hop => exact encode_of_decodeXY0 w _ hop .sneReg (fun _ _ => rfl) i h
  case h_15 hop => exact encode_of_decodeFamilyE w hop i h
  case h_2 hop | h_3 hop | h_11 hop | h_12 hop =>
    cases h
    exact formatNNN_nnnField w _ hop
  case h_4 hop | h_5 hop | h_7 hop | h_8 hop | h_13 hop =>
    cases h
    exact formatXNN_xField w _ _ hop rfl
  case h_14 hop =>
    cases h
    exact formatXYS_xField_yField w _ _ hop rfl
  case h_16 =>
    have hop : opField w = 0xF#4 := by
      simp only [imp_false, ← ne_eq] at *
      bv_omega
    exact encode_of_decodeFamilyF w hop i h

end Sys2Proof
end

section
/-! PROOFS. The opcode table, the decoder and the list of illegal words (spec/30_encoding.md R56 to R58): the digits that a
row fixes, the words that the decoder rejects, and that the three agree on every word. -/

namespace Sys2Proof

open Machine

/-! ### Digits as numbers, and under a mask -/

theorem toNat_opField (w : Word) : (opField w).toNat = w.toNat / 4096 := by
  have hw := w.isLt
  rw [opField, BitVec.extractLsb'_toNat, Nat.shiftRight_eq_div_pow]
  omega

theorem toNat_nField (w : Word) : (nField w).toNat = w.toNat % 16 := by
  rw [nField, BitVec.extractLsb'_toNat, Nat.shiftRight_zero]

theorem toNat_nnField (w : Word) : (nnField w).toNat = w.toNat % 256 := by
  rw [nnField, BitVec.extractLsb'_toNat, Nat.shiftRight_zero]

/-- A mask that keeps a field whole keeps its value. -/
theorem opField_and (w m : Word) (hm : opField m = 0xF#4) : opField (w &&& m) = opField w := by
  have hand : opField (w &&& m) = opField w &&& opField m := BitVec.extractLsb'_and
  rw [hand, hm]
  exact BitVec.and_allOnes

theorem nField_and (w m : Word) (hm : nField m = 0xF#4) : nField (w &&& m) = nField w := by
  have hand : nField (w &&& m) = nField w &&& nField m := BitVec.extractLsb'_and
  rw [hand, hm]
  exact BitVec.and_allOnes

theorem nnField_and (w m : Word) (hm : nnField m = 0xFF#8) : nnField (w &&& m) = nnField w := by
  have hand : nnField (w &&& m) = nnField w &&& nnField m := BitVec.extractLsb'_and
  rw [hand, hm]
  exact BitVec.and_allOnes

/-- A row that fixes the family digit fixes it to its own. -/
theorem OpcodeRow.opField_of_covers (r : OpcodeRow) (w : Word) (h : r.covers w = true) (hm : opField r.mask = 0xF#4) :
    opField w = opField r.bits := by
  rw [← opField_and w r.mask hm, eq_of_beq h]

theorem OpcodeRow.nField_of_covers (r : OpcodeRow) (w : Word) (h : r.covers w = true) (hm : nField r.mask = 0xF#4) :
    nField w = nField r.bits := by
  rw [← nField_and w r.mask hm, eq_of_beq h]

theorem OpcodeRow.nnField_of_covers (r : OpcodeRow) (w : Word) (h : r.covers w = true) (hm : nnField r.mask = 0xFF#8) :
    nnField w = nnField r.bits := by
  rw [← nnField_and w r.mask hm, eq_of_beq h]

/-! ### The list of the illegal words -/

/-- Only the digits that R58 looks at matter: the family, then the low digit, the low byte or the whole word. -/
theorem illegalByFamily_congr (w w' : Word) (hop : opField w = opField w')
    (h0 : opField w' = 0x0#4 → w = w')
    (hn : opField w' = 0x5#4 ∨ opField w' = 0x8#4 ∨ opField w' = 0x9#4 → nField w = nField w')
    (hnn : opField w' = 0xE#4 ∨ opField w' = 0xF#4 → nnField w = nnField w') :
    illegalByFamily w = illegalByFamily w' := by
  simp only [illegalByFamily, ← toNat_opField, ← toNat_nField, ← toNat_nnField, hop]
  split
  case h_1 h => rw [h0 (BitVec.eq_of_toNat_eq h)]
  case h_2 h => rw [hn (.inl (BitVec.eq_of_toNat_eq h))]
  case h_3 h => rw [hn (.inr (.inl (BitVec.eq_of_toNat_eq h)))]
  case h_4 h => rw [hn (.inr (.inr (BitVec.eq_of_toNat_eq h)))]
  case h_5 h => rw [hnn (.inl (BitVec.eq_of_toNat_eq h))]
  case h_6 h => rw [hnn (.inr (BitVec.eq_of_toNat_eq h))]
  case h_7 => rfl

/-- Each row of the table fixes the family digit and the digits that R58 looks at in its family. -/
theorem opcodeRows_fix_digits : ∀ r ∈ opcodeRows,
    opField r.mask = 0xF#4 ∧ (opField r.bits = 0x0#4 → r.mask = 0xFFFF#16) ∧
    (opField r.bits = 0x5#4 ∨ opField r.bits = 0x8#4 ∨ opField r.bits = 0x9#4 → nField r.mask = 0xF#4) ∧
    (opField r.bits = 0xE#4 ∨ opField r.bits = 0xF#4 → nnField r.mask = 0xFF#8) := by
  decide

theorem opcodeRows_bits_legal : ∀ r ∈ opcodeRows, illegalByFamily r.bits = false := by
  decide

theorem legal_of_covers (r : OpcodeRow) (hr : r ∈ opcodeRows) (w : Word) (h : r.covers w = true) :
    illegalByFamily w = false := by
  obtain ⟨hop, h0, hn, hnn⟩ := opcodeRows_fix_digits r hr
  rw [← opcodeRows_bits_legal r hr]
  refine illegalByFamily_congr w r.bits (r.opField_of_covers w h hop) (fun h' => ?_)
    (fun h' => r.nField_of_covers w h (hn h')) (fun h' => r.nnField_of_covers w h (hnn h'))
  have hw : w &&& r.mask = r.bits := eq_of_beq h
  rw [h0 h'] at hw
  exact BitVec.and_allOnes.symm.trans hw

/-! ### The rejected words -/

theorem decodeXY0_eq_error_iff (w : Word) (mk : RegNum → RegNum → Instr) :
    decodeXY0 w mk = .error (.illegalInstruction w) ↔ (nField w).toNat ≠ 0 := by
  unfold decodeXY0
  split
  · next hn => simp [hn]
  · next hn => simpa using fun h0 => hn (BitVec.eq_of_toNat_eq h0)

theorem decodeFamily8_eq_error_iff (w : Word) :
    decodeFamily8 w = .error (.illegalInstruction w) ↔
      [0x8, 0x9, 0xA, 0xB, 0xC, 0xD, 0xF].contains (nField w).toNat = true := by
  unfold decodeFamily8
  split
  case h_10 =>
    simp only [imp_false, ← ne_eq] at *
    simp only [List.contains_eq_mem, List.mem_cons, List.not_mem_nil, or_false, decide_eq_true_eq, true_iff]
    bv_omega
  all_goals
    next hn => simp [hn]

theorem decodeFamilyE_eq_error_iff (w : Word) :
    decodeFamilyE w = .error (.illegalInstruction w) ↔ [0x9E, 0xA1].contains (nnField w).toNat = false := by
  unfold decodeFamilyE
  split
  case h_3 =>
    simp only [imp_false, ← ne_eq] at *
    simp only [List.contains_eq_mem, List.mem_cons, List.not_mem_nil, or_false, decide_eq_false_iff_not, true_iff]
    bv_omega
  all_goals
    next hn => simp [hn]

theorem decodeFamilyF_eq_error_iff (w : Word) :
    decodeFamilyF w = .error (.illegalInstruction w) ↔
      [0x07, 0x0A, 0x15, 0x18, 0x1E, 0x29, 0x33, 0x55, 0x65].contains (nnField w).toNat = false := by
  unfold decodeFamilyF
  split
  case h_10 =>
    simp only [imp_false, ← ne_eq] at *
    simp only [List.contains_eq_mem, List.mem_cons, List.not_mem_nil, or_false, decide_eq_false_iff_not, true_iff]
    bv_omega
  all_goals
    next hn => simp [hn]

theorem decodeFamily0_eq_error_iff (w : Word) :
    decodeFamily0 w = .error (.illegalInstruction w) ↔ w.toNat ≠ 0x00E0 ∧ w.toNat ≠ 0x00EE := by
  have hval (k : Word) : w = k ↔ w.toNat = k.toNat := BitVec.toNat_inj.symm
  unfold decodeFamily0
  split
  · next h => simp [h]
  · next h =>
    split
    · next h' => simp [h']
    · next h' => simpa [hval] using And.intro h h'

/-- A word is rejected with itself exactly when R58 lists it. -/
theorem decodeWord_eq_error_iff (w : Word) :
    decodeWord w = .error (.illegalInstruction w) ↔ illegalByFamily w = true := by
  simp only [illegalByFamily, ← toNat_opField, ← toNat_nField, ← toNat_nnField]
  unfold decodeWord
  split
  case h_1 hop => simpa [hop] using decodeFamily0_eq_error_iff w
  case h_6 hop => simpa [hop] using decodeXY0_eq_error_iff w .seReg
  case h_9 hop => simpa [hop] using decodeFamily8_eq_error_iff w
  case h_10 hop => simpa [hop] using decodeXY0_eq_error_iff w .sneReg
  case h_15 hop => simpa [hop] using decodeFamilyE_eq_error_iff w
  case h_16 =>
    have hop : opField w = 0xF#4 := by
      simp only [imp_false, ← ne_eq] at *
      bv_omega
    simpa [hop] using decodeFamilyF_eq_error_iff w
  all_goals
    next hop => simp [hop]

/-- The decoder's only error on a word carries the word. -/
theorem eq_illegalInstruction_of_decodeWord (w : Word) (e : DecodeError) (h : decodeWord w = .error e) :
    e = .illegalInstruction w := by
  unfold decodeWord decodeFamily0 decodeXY0 decodeFamily8 decodeFamilyE decodeFamilyF at h
  repeat' split at h
  all_goals cases h
  all_goals rfl

theorem exists_decodeWord_iff_legal (w : Word) : (∃ i, decodeWord w = .ok i) ↔ illegalByFamily w = false := by
  rw [← Bool.not_eq_true, ← decodeWord_eq_error_iff]
  cases h : decodeWord w with
  | ok i => simp
  | error e => simp [eq_illegalInstruction_of_decodeWord w e h]

/-! ### The table -/

open Laws.RowMatch in
/-- The family RowMatch for every instruction: its row is in the table and covers its word. -/
theorem rowMatch : ∀ i : Instr, Statement i
  | .cls => cls
  | .ret => ret
  | .jp nnn => jp nnn
  | .call nnn => call nnn
  | .seImm x nn => seImm x nn
  | .sneImm x nn => sneImm x nn
  | .seReg x y => seReg x y
  | .ldImm x nn => ldImm x nn
  | .addImm x nn => addImm x nn
  | .ldReg x y => ldReg x y
  | .orReg x y => orReg x y
  | .andReg x y => andReg x y
  | .xorReg x y => xorReg x y
  | .addReg x y => addReg x y
  | .sub x y => sub x y
  | .shr x y => shr x y
  | .subn x y => subn x y
  | .shl x y => shl x y
  | .sneReg x y => sneReg x y
  | .ldI nnn => ldI nnn
  | .jpV0 nnn => jpV0 nnn
  | .rnd x nn => rnd x nn
  | .drw x y n => drw x y n
  | .skp x => skp x
  | .sknp x => sknp x
  | .ldVxDt x => ldVxDt x
  | .ldVxK x => ldVxK x
  | .ldDtVx x => ldDtVx x
  | .ldStVx x => ldStVx x
  | .addI x => addI x
  | .ldF x => ldF x
  | .ldB x => ldB x
  | .ldIVx x => ldIVx x
  | .ldVxI x => ldVxI x

theorem wellFormedWord_iff (w : Word) : wellFormedWord w = true ↔ ∃ r ∈ opcodeRows, r.covers w = true := by
  simp [wellFormedWord]

theorem row_of_decodeWord (w : Word) (i : Instr) (h : decodeWord w = .ok i) :
    i.row ∈ opcodeRows ∧ i.row.covers w = true := by
  obtain ⟨hcov, hmem⟩ := rowMatch i
  exact ⟨hmem, encodeOfDecodeIsTheWord w i h ▸ hcov⟩

/-- The words of the table are the ones that decode: a covered word is legal, and a decoded one is covered by the row of
its instruction. -/
theorem wellFormedWord_iff_exists_decodeWord (w : Word) : wellFormedWord w = true ↔ ∃ i, decodeWord w = .ok i := by
  rw [wellFormedWord_iff]
  constructor
  · rintro ⟨r, hr, hcov⟩
    exact (exists_decodeWord_iff_legal w).mpr (legal_of_covers r hr w hcov)
  · rintro ⟨i, hi⟩
    exact ⟨i.row, row_of_decodeWord w i hi⟩

/-- Settles O4: the table, the decoder and the list of R58 meet in the words that decode. -/
theorem decodeAcceptsExactlyTheTable : Obligations.DecodeAcceptsExactlyTheTable := by
  refine fun w => ⟨row_of_decodeWord w, (wellFormedWord_iff_exists_decodeWord w).mp, ?_, decodeWord_eq_error_iff w⟩
  rw [Bool.eq_iff_iff, wellFormedWord_iff_exists_decodeWord, exists_decodeWord_iff_legal, Bool.not_eq_true']

/-- Settles O5: two rows that cover a word agree on the digits both of them fix, and no two rows of the table do. -/
theorem noWordMatchesTwoRows : Obligations.NoWordMatchesTwoRows := by
  have hdisjoint : ∀ a ∈ opcodeRows, ∀ b ∈ opcodeRows, a.bits &&& b.mask = b.bits &&& a.mask → a = b := by decide
  intro w a b ha hb hcovA hcovB
  refine hdisjoint a ha b hb ?_
  have hA : w &&& a.mask = a.bits := eq_of_beq hcovA
  have hB : w &&& b.mask = b.bits := eq_of_beq hcovB
  rw [← hA, ← hB, BitVec.and_assoc, BitVec.and_assoc, BitVec.and_comm a.mask]

end Sys2Proof
end

section
/-! PROOFS. The word that `withFetchWord` places is the one the next step fetches (log 24). -/

namespace Sys2Proof.Machine

/-- Two bytes of a word put together again are the word that a fetch reads (spec/20_memory.md R40). -/
theorem State.fetched_of_bytes (s : State) (w : Word) (hhi : s.mem.read s.pc.toNat = highByte w)
    (hlo : s.mem.read (s.pc.toNat + 1) = lowByte w) : s.fetched = w := by
  rw [State.fetched, hhi, hlo, ← wordOfBytes_eq_ofNat, wordOfBytes_highByte_lowByte]

/-- The slot always has room for the two bytes of an instruction. -/
theorem State.fetchSlot_inRange (s : State) : s.fetchSlot.toNat + 1 < Config.memSize := by
  unfold State.fetchSlot
  split
  · next h => exact (inRange_two_iff _).mp h
  · decide

theorem State.withFetchWord_pc (s : State) (nbits w : Nat) : (s.withFetchWord nbits w).pc = s.fetchSlot := rfl

theorem State.withFetchWord_mem (s : State) (nbits w : Nat) :
    (s.withFetchWord nbits w).mem =
      (s.mem.write s.fetchSlot.toNat (highByte (BitVec.ofNat 16 (w % 2 ^ nbits)))).write (s.fetchSlot.toNat + 1)
        (lowByte (BitVec.ofNat 16 (w % 2 ^ nbits))) := rfl

theorem State.withFetchWord_cycleBegins (s : State) (nbits w : Nat) : (s.withFetchWord nbits w).cycleBegins :=
  ⟨rfl, rfl, rfl⟩

/-- With canonical memory both placed bytes read back, so the fetch finds the placed word. -/
theorem State.withFetchWord_fetched (s : State) (nbits w : Nat) (hwf : s.mem.wf = true) :
    (s.withFetchWord nbits w).fetched = BitVec.ofNat 16 (w % 2 ^ nbits) := by
  have hslot := s.fetchSlot_inRange
  apply State.fetched_of_bytes
  · rw [s.withFetchWord_mem, s.withFetchWord_pc, Memory.read_write_other _ _ _ _ (Nat.ne_of_lt (Nat.lt_succ_self _)),
      Memory.read_write_same _ _ _ hwf]
  · rw [s.withFetchWord_mem, s.withFetchWord_pc]
    exact Memory.read_write_same _ _ _ (Memory.wf_write _ _ _ (by omega) hwf)

theorem decodeWord_of_decodeTableWord (nbits w : Nat) (i : Instr) (h : decodeTableWord nbits w = some i) :
    decodeWord (BitVec.ofNat 16 (w % 2 ^ nbits)) = .ok i := by
  simp only [decodeTableWord, decodeBytes, wordOfBytes_highByte_lowByte] at h
  cases hd : decodeWord (BitVec.ofNat 16 (w % 2 ^ nbits)) with
  | ok j => simpa [hd] using h
  | error e => simp [hd] at h

/-- Settles O6: the slot lies in memory, the two bytes read back, and the decoder sees the same word. -/
theorem placedWordIsTheOneRun : Obligations.PlacedWordIsTheOneRun := by
  intro s w i hwf hdecode
  refine ⟨⟨s.withFetchWord_cycleBegins 16 w, rfl, s.fetchSlot_inRange⟩, ?_⟩
  rw [s.withFetchWord_fetched 16 w hwf]
  exact decodeWord_of_decodeTableWord 16 w i hdecode

end Sys2Proof.Machine
end

section
/-! PROOFS. The faults of the instructions (spec/60_exceptions.md R122 to R127, R129): when each shared operation raises its
fault, and so which instruction raises which. -/

namespace Sys2Proof.Machine

/-! ### When a shared operation raises its fault -/

theorem inRange_eq_false_iff (first n : Nat) : inRange first n = false ↔ 0 < n ∧ Config.memSize < first + n := by
  rw [← Bool.not_eq_true, inRange_iff]
  omega

theorem checked_next_eq_fault_iff (first n : Nat) (t : State) (f : Fault) :
    checked first n (.next t) = .fault f ↔
      (0 < n ∧ Config.memSize < first + n) ∧ f = .raised (.memoryRange (max first Config.memSize)) := by
  rw [← inRange_eq_false_iff]
  cases h : inRange first n with
  | true => simp [checked_of_inRange _ _ _ h]
  | false => simp [checked_of_not_inRange _ _ _ h, eq_comm]

theorem pop_next_eq_fault_iff (s : State) (k : Word → State → State) (f : Fault) :
    pop s (fun w t => .next (k w t)) = .fault f ↔ s.stack = [] ∧ f = .raised .stackUnderflow := by
  unfold pop
  split
  · next h => simp [List.getLast?_eq_none_iff.mp h, raise, eq_comm]
  · next w h =>
    have hne : s.stack ≠ [] := fun h' => by simp [h'] at h
    simp [hne]

theorem push_next_eq_fault_iff (s : State) (w : Word) (k : State → State) (f : Fault) :
    push s w (fun t => .next (k t)) = .fault f ↔
      s.params.stackCapacity = some s.stack.length ∧ f = .raised (.stackOverflow s.stack.length) := by
  rw [← s.stackFull_iff]
  by_cases h : s.stackFull = true
  · simp [push_of_stackFull _ _ _ h, h, raise, eq_comm]
  · simp [push_of_not_stackFull _ _ _ h, h]

theorem withKey_next_eq_fault_iff (s : State) (x : RegNum) (k : Bool → State) (f : Fault) :
    withKey s x (fun c => .next (k c)) = .fault f ↔ 15 < (s.getV x).toNat ∧ f = .raised (.keyRange (s.getV x)) := by
  unfold withKey
  split
  · next h => simp [show 15 < (s.getV x).toNat from h, raise, eq_comm]
  · next h => simp [show ¬ 15 < (s.getV x).toNat from h]

/-! ### The instructions -/

theorem exec_skp (x : RegNum) (s : State) : exec (.skp x) s = withKey s x fun down => .next (s.skipIf down) := rfl

theorem exec_sknp (x : RegNum) (s : State) : exec (.sknp x) s = withKey s x fun down => .next (s.skipIf !down) := rfl

theorem exec_ne_refused (i : Instr) (s : State) (r : Refusal) : exec i s ≠ .refused r := by
  obtain ⟨t, ht, -⟩ | ⟨f, hf⟩ := exec_cases i s
  · simp [ht]
  · simp [hf]

/-- Settles O31: only the instructions with a pop, a push, a key query or a checked access raise, each that operation's
fault. -/
theorem eachInstructionRaisesOnlyItsOwnFault : Obligations.EachInstructionRaisesOnlyItsOwnFault := by
  refine fun i s => ⟨exec_ne_refused i s, fun f h => ?_⟩
  cases i with
  | ret =>
    rw [exec_ret, pop_next_eq_fault_iff] at h
    obtain ⟨hempty, hf⟩ := h
    exact .inl ⟨rfl, hempty, hf⟩
  | call nnn =>
    rw [exec_call, push_next_eq_fault_iff] at h
    obtain ⟨hfull, hf⟩ := h
    exact .inr (.inl ⟨nnn, rfl, hfull, hf⟩)
  | skp x =>
    rw [exec_skp, withKey_next_eq_fault_iff] at h
    obtain ⟨hkey, hf⟩ := h
    exact .inr (.inr (.inl ⟨x, .inl rfl, hkey, hf⟩))
  | sknp x =>
    rw [exec_sknp, withKey_next_eq_fault_iff] at h
    obtain ⟨hkey, hf⟩ := h
    exact .inr (.inr (.inl ⟨x, .inr rfl, hkey, hf⟩))
  | drw x y n =>
    obtain ⟨⟨hpos, hout⟩, hf⟩ := (checked_next_eq_fault_iff _ _ _ f).mp h
    exact .inr (.inr (.inr ⟨hf, .inl ⟨x, y, n, rfl, hpos, hout⟩⟩))
  | ldB x =>
    obtain ⟨⟨-, hout⟩, hf⟩ := (checked_next_eq_fault_iff _ _ _ f).mp h
    exact .inr (.inr (.inr ⟨hf, .inr (.inl ⟨x, rfl, hout⟩)⟩))
  | ldIVx x =>
    obtain ⟨⟨-, hout⟩, hf⟩ := (checked_next_eq_fault_iff _ _ _ f).mp h
    exact .inr (.inr (.inr ⟨hf, .inr (.inr ⟨x, .inl rfl, hout⟩)⟩))
  | ldVxI x =>
    obtain ⟨⟨-, hout⟩, hf⟩ := (checked_next_eq_fault_iff _ _ _ f).mp h
    exact .inr (.inr (.inr ⟨hf, .inr (.inr ⟨x, .inr rfl, hout⟩)⟩))
  | _ => cases h

/-- No instruction raises the decoder's fault. -/
theorem exec_ne_illegalInstruction (i : Instr) (s : State) (w : Word) :
    exec i s ≠ .fault (.raised (.illegalInstruction w)) := by
  intro h
  obtain ⟨-, -, hf⟩ | ⟨_, -, -, hf⟩ | ⟨_, -, -, hf⟩ | ⟨hf, -⟩ :=
    (eachInstructionRaisesOnlyItsOwnFault i s).2 _ h
  all_goals simp at hf

end Sys2Proof.Machine
end

section
/-! PROOFS. What each kind of turn answers (spec/40_engine_cycle.md R64 to R78): the engine's cycle by its fetch, its decode
and its instruction, then the turns of the tick source and of the host, then what a step can never do. -/

namespace Sys2Proof.Machine

/-! ### The engine's turn -/

theorem step_of_engineTurn (s : State) (h : s.turn = .engine) : step s = engineStep s.popAgenda := by
  simp [step, h]

theorem engineStep_of_ended (s : State) (h : s.status ≠ .run) : engineStep s = .fault .runEnded := by
  cases hstatus : s.status with
  | run => exact absurd hstatus h
  | stopped | faulted r => simp [engineStep, hstatus]

theorem engineStep_of_closed (s : State) (hrun : s.status = .run) (h : s.ports.windowOpen = false) :
    engineStep s = .next s.stop := by
  simp [engineStep, hrun, h]

theorem step_of_running (s : State) (hbegins : s.cycleBegins) (hmode : s.mode = .running) :
    step s = runningCycle s.popAgenda := by
  obtain ⟨hturn, hrun, hopen⟩ := hbegins
  simp [step, engineStep, hturn, hrun, hopen, hmode]

/-- A fetch that leaves memory fails at the lowest address outside it (R67). -/
theorem fetch_of_outside (s : State) (h : Config.memSize ≤ s.pc.toNat + 1) :
    fetch s = .error (.memoryRange (max s.pc.toNat Config.memSize)) := by
  have hout : ¬ inRange s.pc.toNat 2 = true := mt (inRange_two_iff s.pc.toNat).mp (Nat.not_lt.mpr h)
  simp only [fetch, if_neg hout, failAddress]

/-- With both bytes in memory the cycle ends as its word's execution does. -/
theorem step_of_fetches (s : State) (h : s.fetches) :
    step s = finish s.popAgenda (executeWord s.popAgenda s.fetched) := by
  obtain ⟨hbegins, hmode, hpc⟩ := h
  have hfetch : fetch s.popAgenda = .ok s.fetched := (fetch_ok_iff s.popAgenda s.fetched).mpr ⟨hpc, rfl⟩
  rw [step_of_running s hbegins hmode]
  simp only [runningCycle, hfetch]

theorem executeWord_of_ok (s : State) (w : Word) (i : Instr) (h : decodeWord w = .ok i) :
    executeWord s w = exec i s.advancePc := by
  simp only [executeWord, h]

theorem executeWord_of_error (s : State) (w : Word) (e : DecodeError) (h : decodeWord w = .error e) :
    executeWord s w = .fault (.raised (.illegalInstruction w)) := by
  simp only [executeWord, h, raise]

/-- An instruction that raises a fault ends its step in the taking of that fault (R75). -/
theorem step_of_runs_fault (s : State) (i : Instr) (f : CycleFault) (hruns : s.runs i)
    (hexec : exec i s.executing = .fault (.raised f)) : step s = .next (s.popAgenda.takeFault f) := by
  obtain ⟨hfetches, hdecode⟩ := hruns
  rw [step_of_fetches s hfetches, executeWord_of_ok _ _ i hdecode]
  exact congrArg (finish s.popAgenda) hexec

/-- Service touches pending ticks, the timers, the buzzer and the presented frame only (R70). -/
theorem State.service_frame (s : State) :
    s.service = { s with pendingTicks := s.service.pendingTicks, dt := s.service.dt, st := s.service.st,
                         buzzer := s.service.buzzer, ports := { s.ports with frameOut := s.grid } } := by
  by_cases h : s.pendingTicks = 0
  · simp [State.service, s.pollTick_of_no_tick h, State.gateBuzzer, State.present, State.setPorts]
  · simp [State.service, s.pollTick_of_tick (Nat.pos_of_ne_zero h), State.gateBuzzer, State.present, State.setPorts]

/-- A completed instruction keeps the parameters, the ports and the status. -/
theorem exec_keeps (i : Instr) (s t : State) (h : exec i s = .next t) :
    t.params = s.params ∧ t.ports = s.ports ∧ t.status = s.status := by
  obtain ⟨u, hu, hparams, hports, -, -, hstatus, -⟩ | ⟨f, hf⟩ := exec_cases i s
  · cases h.symm.trans hu
    exact ⟨hparams, hports, hstatus⟩
  · cases h.symm.trans hf

/-! ### The statements about the engine's turn -/

/-- Settles O7: the step that runs an instruction ends in service, or in the taking of its fault. -/
theorem stepRunsTheDecodedInstruction : Obligations.StepRunsTheDecodedInstruction :=
  fun s i hruns => ⟨rfl, fun t => step_of_runs s t i hruns, fun f => step_of_runs_fault s i f hruns⟩

/-- Settles O9: the instruction keeps the ports, so only service changes them. -/
theorem serviceGatesTheBuzzerAndPresentsTheGrid : Obligations.ServiceGatesTheBuzzerAndPresentsTheGrid := by
  intro s t i hruns hexec
  have hports : t.ports = s.ports := (exec_keeps i s.executing t hexec).2.1
  refine ⟨t.service, step_of_runs s t i hruns hexec, ?_, ?_, t.service_grid, ?_⟩
  · simp
  · simp
  · rw [← hports]
    exact t.service_frame

/-- Settles O10: the fetch fails, so nothing is decoded and the cycle takes the fetch's fault. -/
theorem fetchOutsideMemoryFaults : Obligations.FetchOutsideMemoryFaults := by
  intro s hbegins hmode hpc
  have hout : Config.memSize ≤ s.popAgenda.pc.toNat + 1 := Nat.succ_le_succ hpc
  rw [step_of_running s hbegins hmode, runningCycle, fetch_of_outside _ hout]
  rfl

/-- Settles O11: a listed word is rejected by the decoder, and of the faults of a cycle that fetched only that rejection
is an illegal instruction. -/
theorem illegalWordFaults : Obligations.IllegalWordFaults := by
  refine fun s hfetches => ⟨fun hillegal => ?_, fun t w p hstep hfault => ?_⟩
  · have hreject := (decodeWord_eq_error_iff s.fetched).mpr hillegal
    rw [step_of_fetches s hfetches, executeWord_of_error _ _ _ hreject]
    rfl
  · rw [step_of_fetches s hfetches] at hstep
    cases hdecode : decodeWord s.fetched with
    | error e =>
      rw [executeWord_of_error _ _ e hdecode] at hstep
      cases hstep
      cases hfault
      have he := eq_illegalInstruction_of_decodeWord _ e hdecode
      exact ⟨rfl, (decodeWord_eq_error_iff s.fetched).mp (he ▸ hdecode)⟩
    | ok i =>
      rw [executeWord_of_ok _ _ i hdecode] at hstep
      obtain ⟨u, hu, -, -, -, -, hstatus, -⟩ | ⟨f, hf⟩ := exec_cases i s.popAgenda.advancePc
      · rw [hu] at hstep
        cases hstep
        have hrun : s.status = .run := hfetches.1.2.1
        simp [hstatus, hrun] at hfault
      · rw [hf] at hstep
        cases hstep
        cases hfault
        exact absurd hf (exec_ne_illegalInstruction i _ w)

/-- Settles O13: the window is looked at before the mode. -/
theorem closedWindowStopsTheRun : Obligations.ClosedWindowStopsTheRun := by
  intro s hturn hrun hclosed
  rw [step_of_engineTurn s hturn, engineStep_of_closed s.popAgenda hrun hclosed]
  rfl

/-! ### The turns of the tick source and of the host -/

theorem step_of_tick (s : State) (h : s.turn = .tick) : step s = .next s.popAgenda.tickStep := by
  simp [step, h]

theorem step_of_observeShutdown (s : State) (h : s.turn = .observeShutdown) :
    step s = .next s.popAgenda.observeShutdownStep := by
  simp [step, h]

theorem step_of_setKeys (s : State) (k : KeyLines) (h : s.turn = .setKeys k) :
    step s = .next (s.popAgenda.setKeysStep k) := by
  simp [step, h]

theorem step_of_closeWindow (s : State) (h : s.turn = .closeWindow) : step s = .next s.popAgenda.closeWindowStep := by
  simp [step, h]

theorem step_of_supplyDraw (s : State) (b : Byte) (h : s.turn = .supplyDraw b) :
    step s = .next (s.popAgenda.supplyDrawStep b) := by
  simp [step, h]

theorem Status.isFaulted_iff (f : Status) : f.isFaulted = true ↔ ∃ r, f = .faulted r := by
  cases f <;> simp [Status.isFaulted]

/-- A live source adds a tick before the run has faulted (R135). -/
theorem State.tickStep_of_live (s : State) (halive : s.env.tickAlive = true) (h : ¬ ∃ r, s.status = .faulted r) :
    s.tickStep = { s with pendingTicks := s.pendingTicks + 1 } := by
  have hok : s.status.isFaulted = false := Bool.eq_false_iff.mpr (mt (Status.isFaulted_iff _).mp h)
  simp [State.tickStep, halive, hok]

/-- A source that has ended adds none, and none counts after a fault (R147). -/
theorem State.tickStep_of_silent (s : State) (h : s.env.tickAlive = false ∨ ∃ r, s.status = .faulted r) :
    s.tickStep = s := by
  obtain hdead | hfaulted := h
  · simp [State.tickStep, hdead]
  · simp [State.tickStep, (Status.isFaulted_iff _).mpr hfaulted]

/-- Settles O17, one kind of turn and one state of the source at a time. -/
theorem tickSourceAddsOneUntilShutdown : Obligations.TickSourceAddsOneUntilShutdown := by
  refine fun s => ⟨fun hturn halive hstatus => ?_, fun hturn hsilent => ?_, fun hturn hup => ?_, fun hturn hdown => ?_⟩
  · have hok : ¬ ∃ r, s.popAgenda.status = .faulted r := by
      rintro ⟨r, hr⟩
      obtain h | h := hstatus <;> cases h.symm.trans hr
    rw [step_of_tick s hturn, State.tickStep_of_live s.popAgenda halive hok]
    rfl
  · rw [step_of_tick s hturn, State.tickStep_of_silent s.popAgenda hsilent]
  · refine ⟨_, step_of_observeShutdown s hturn, ?_⟩
    rw [State.observeShutdownStep, if_pos (show s.popAgenda.ports.shutdown = true from hup)]
    exact ⟨rfl, rfl⟩
  · have hskip : ¬ s.popAgenda.ports.shutdown = true := by simp [hdown]
    rw [step_of_observeShutdown s hturn, State.observeShutdownStep, if_neg hskip]

/-- Settles O18: each of the host's turns writes one input. -/
theorem hostChangesInputsOnly : Obligations.HostChangesInputsOnly :=
  fun s => ⟨step_of_setKeys s, step_of_closeWindow s,
    fun b hturn => ⟨_, step_of_supplyDraw s b hturn, rfl, rfl⟩⟩

/-! ### What every step does -/

theorem executeWord_next_or_raised (s : State) (w : Word) :
    (∃ t, executeWord s w = .next t) ∨ ∃ f, executeWord s w = .fault (.raised f) := by
  cases hdecode : decodeWord w with
  | error e => exact .inr ⟨_, executeWord_of_error s w e hdecode⟩
  | ok i =>
    rw [executeWord_of_ok s w i hdecode]
    obtain ⟨t, ht, -⟩ | hfault := exec_cases i s.advancePc
    · exact .inl ⟨t, ht⟩
    · exact .inr hfault

theorem runningCycle_next (s : State) : ∃ t, runningCycle s = .next t := by
  unfold runningCycle
  split
  · next w _ =>
    obtain ⟨t, ht⟩ | ⟨f, hf⟩ := executeWord_next_or_raised s w
    · exact ⟨t.service, by rw [ht, finish]⟩
    · exact ⟨s.takeFault f, by rw [hf, finish]⟩
  · exact ⟨_, rfl⟩

theorem engineStep_next_of_run (s : State) (hrun : s.status = .run) : ∃ t, engineStep s = .next t := by
  cases hopen : s.ports.windowOpen with
  | false => exact ⟨_, engineStep_of_closed s hrun hopen⟩
  | true =>
    cases hmode : s.mode with
    | running => simpa [engineStep, hrun, hopen, hmode] using runningCycle_next s
    | waitingForKey r => exact ⟨s.waitingCycle r, by simp [engineStep, hrun, hopen, hmode]⟩

/-- Settles O14: only the engine's turn can fail, and only where no cycle can begin. -/
theorem stepStopsOnlyAfterTheEnd : Obligations.StepStopsOnlyAfterTheEnd := by
  intro s
  cases hturn : s.turn with
  | engine =>
    rw [step_of_engineTurn s hturn]
    by_cases hrun : s.status = .run
    · exact .inl (engineStep_next_of_run s.popAgenda hrun)
    · exact .inr ⟨engineStep_of_ended s.popAgenda hrun, rfl, hrun⟩
  | tick => exact .inl ⟨_, step_of_tick s hturn⟩
  | observeShutdown => exact .inl ⟨_, step_of_observeShutdown s hturn⟩
  | setKeys k => exact .inl ⟨_, step_of_setKeys s k hturn⟩
  | closeWindow => exact .inl ⟨_, step_of_closeWindow s hturn⟩
  | supplyDraw b => exact .inl ⟨_, step_of_supplyDraw s b hturn⟩

theorem State.waitingCycle_status (s : State) (r : RegNum) : (s.waitingCycle r).status = s.status := by
  rw [s.waitingCycle_frame r]

/-- Settles O12: of the steps from a running state only the taking of a fault ends in `Faulted`. -/
theorem faultRestoresTheCycleStart : Obligations.FaultRestoresTheCycleStart := by
  intro s t r hrun hstep hfault
  obtain ⟨hturn, he⟩ | ⟨-, rfl⟩ | ⟨-, rfl⟩ | ⟨k, -, rfl⟩ | ⟨-, rfl⟩ | ⟨b, -, rfl⟩ := step_cases s t hstep
  case inl =>
    obtain ⟨-, ⟨-, rfl⟩ | ⟨-, q, -, rfl⟩ | ⟨-, -, f, rfl⟩ | ⟨i, u, -, hu, rfl⟩⟩ := engineTurn_cases s t hturn he
    case inr.inr.inl =>
      cases hfault
      exact ⟨⟨f, rfl⟩, rfl⟩
    case inr.inr.inr =>
      obtain ⟨-, -, hstatus⟩ := exec_keeps i s.executing u hu
      have hkept : u.status = s.status := hstatus
      simp [hkept, hrun] at hfault
    all_goals simp [State.waitingCycle_status, hrun] at hfault
  all_goals simp [hrun] at hfault

/-- After the end a tick changes pending ticks only, and after a fault not even those. -/
theorem State.tickStep_frame (s : State) :
    s.tickStep = { s with pendingTicks := s.tickStep.pendingTicks } ∧
    ((∃ r, s.status = .faulted r) → s.tickStep.pendingTicks = s.pendingTicks) := by
  refine ⟨?_, fun h => by rw [s.tickStep_of_silent (.inr h)]⟩
  unfold State.tickStep
  split <;> rfl

theorem State.observeShutdownStep_frame (s : State) :
    s.observeShutdownStep = { s with env := s.observeShutdownStep.env } := by
  unfold State.observeShutdownStep
  split <;> rfl

/-- Settles O15: without an engine cycle only the agents around it act. -/
theorem nothingRunsAfterTheEnd : Obligations.NothingRunsAfterTheEnd := by
  refine fun s hended => ⟨fun hturn => ?_, fun t hstep => ?_⟩
  · exact (step_of_engineTurn s hturn).trans (engineStep_of_ended s.popAgenda hended)
  obtain ⟨hturn, he⟩ | ⟨-, rfl⟩ | ⟨-, rfl⟩ | ⟨k, -, rfl⟩ | ⟨-, rfl⟩ | ⟨b, -, rfl⟩ := step_cases s t hstep
  case inl => exact absurd (engineTurn_cases s t hturn he).1 hended
  case inr.inl =>
    obtain ⟨hframe, hfaulted⟩ := s.popAgenda.tickStep_frame
    refine ⟨?_, fun hns => hfaulted ?_⟩
    · rw [hframe]
      rfl
    · cases hstatus : s.status with
      | run => exact absurd hstatus hended
      | stopped => exact absurd hstatus hns
      | faulted r => exact ⟨r, hstatus⟩
  case inr.inr.inl =>
    rw [s.popAgenda.observeShutdownStep_frame]
    exact ⟨rfl, fun _ => rfl⟩
  all_goals exact ⟨rfl, fun _ => rfl⟩

end Sys2Proof.Machine
end

section
/-! PROOFS. What a step can do to the fields that few instructions write, said once for an instruction and once for a step,
and from it the machine's invariant and the rules about who may change the grid, the stack, the mode and the timers
(spec/10_state.md section 5 to section 8; spec/60_exceptions.md R130 to R147). -/

namespace Sys2Proof.Machine

/-! ### The effect of an instruction -/

/-- The effect of a completed instruction on memory's form, the grid, the stack, the mode and the timers. -/
structure Effect (i : Instr) (s u : State) : Prop where
  mem : s.mem.wf = true → u.mem.wf = true
  grid : u.grid = s.grid ∨ i = .cls ∨ ∃ x y n, i = .drw x y n
  stack : u.stack = s.stack ∨
    (∃ nnn, i = .call nnn ∧ s.stackFull = false ∧ u.stack = s.stack ++ [s.pc]) ∨
    (i = .ret ∧ ∃ w, s.stack = u.stack ++ [w] ∧ u.pc = w)
  mode : u.mode = s.mode ∨ ∃ x, i = .ldVxK x ∧ u.mode = .waitingForKey x
  dt : u.dt = s.dt ∨ ∃ x, i = .ldDtVx x
  st : u.st = s.st ∨ ∃ x, i = .ldStVx x

@[simp] theorem State.length_blockRegs (s : State) (x : RegNum) : (s.blockRegs x).length = blockCount x := by
  simp [State.blockRegs]

/-- A checked store of consecutive bytes keeps memory canonical. -/
theorem Memory.wf_writeList_of_inRange (m : Memory) (a : Nat) (bs : List Byte) (h : inRange a bs.length = true)
    (hwf : m.wf = true) : (m.writeList a bs).wf = true := by
  obtain hnone | hfits := (inRange_iff _ _).mp h
  · rw [List.length_eq_zero_iff.mp hnone]
    exact hwf
  · exact m.wf_writeList a bs hfits hwf

/-- Every completed instruction has its effect: one write at most of these fields, and memory stored in range only. -/
theorem exec_effect (i : Instr) (s u : State) (h : exec i s = .next u) : Effect i s u := by
  cases i with
  | cls => cases h; exact ⟨id, .inr (.inl rfl), .inl rfl, .inl rfl, .inl rfl, .inl rfl⟩
  | ret =>
    rw [exec_ret, pop_next] at h
    obtain ⟨w, htop, hk⟩ := h
    cases hk
    have hstack : s.stack = s.stack.dropLast ++ [w] := (List.dropLast_append_getLast? w htop).symm
    exact ⟨id, .inl rfl, .inr (.inr ⟨rfl, w, hstack, rfl⟩), .inl rfl, .inl rfl, .inl rfl⟩
  | call nnn =>
    rw [exec_call, push_next] at h
    obtain ⟨hroom, hk⟩ := h
    cases hk
    exact ⟨id, .inl rfl, .inr (.inl ⟨nnn, rfl, hroom, rfl⟩), .inl rfl, .inl rfl, .inl rfl⟩
  | skp x | sknp x =>
    simp only [exec_skp, exec_sknp, withKey_next] at h
    obtain ⟨-, hk⟩ := h
    cases hk
    exact ⟨by simp, by simp, by simp, by simp, by simp, by simp⟩
  | drw x y n =>
    obtain ⟨-, hk⟩ := (checked_next _ _ _ u).mp h
    cases hk
    exact ⟨id, .inr (.inr ⟨x, y, n, rfl⟩), .inl rfl, .inl rfl, .inl rfl, .inl rfl⟩
  | ldVxK x => cases h; exact ⟨id, .inl rfl, .inl rfl, .inr ⟨x, rfl, rfl⟩, .inl rfl, .inl rfl⟩
  | ldDtVx x => cases h; exact ⟨id, .inl rfl, .inl rfl, .inl rfl, .inr ⟨x, rfl⟩, .inl rfl⟩
  | ldStVx x => cases h; exact ⟨id, .inl rfl, .inl rfl, .inl rfl, .inl rfl, .inr ⟨x, rfl⟩⟩
  | ldB x =>
    obtain ⟨hin, hk⟩ := (checked_next _ _ _ u).mp h
    cases hk
    have hwf := s.mem.wf_writeList_of_inRange s.i.toNat (bcdBytes (s.getV x)) hin
    exact ⟨hwf, .inl rfl, .inl rfl, .inl rfl, .inl rfl, .inl rfl⟩
  | ldIVx x =>
    obtain ⟨hin, hk⟩ := (checked_next _ _ _ u).mp h
    cases hk
    have hlen : inRange s.i.toNat (s.blockRegs x).length = true := by rwa [s.length_blockRegs]
    exact ⟨s.mem.wf_writeList_of_inRange _ _ hlen, .inl rfl, .inl rfl, .inl rfl, .inl rfl, .inl rfl⟩
  | ldVxI x =>
    obtain ⟨-, hk⟩ := (checked_next _ _ _ u).mp h
    cases hk
    exact ⟨by simp, by simp, by simp, by simp, by simp, by simp⟩
  | _ =>
    cases h
    exact ⟨by simp, by simp, by simp, by simp, by simp, by simp⟩

/-! ### A step that completes no instruction -/

/-- What such a step keeps, and how it may change the mode and the ports: a waiting cycle, a fault, a closed window and
the other agents' turns. -/
structure Quiet (s t : State) : Prop where
  mem : t.mem = s.mem
  grid : t.grid = s.grid
  stack : t.stack = s.stack
  dt : t.dt = s.dt
  st : t.st = s.st
  buzzer : t.buzzer = s.buzzer
  params : t.params = s.params
  mode : t.mode = s.mode ∨
    (s.cycleBegins ∧ t.mode = .running ∧ (∃ r, s.mode = .waitingForKey r) ∧ s.ports.keys ≠ 0#16)
  frame : t.ports.frameOut = s.ports.frameOut ∨ t.ports.frameOut = s.grid
  shutdown : s.shutdownShowsStop = true → t.shutdownShowsStop = true

theorem scan_zero : scan 0#16 = none := by decide

/-- A waiting cycle leaves the wait only with a key down. -/
theorem State.waitingCycle_mode (s : State) (r : RegNum) :
    (s.waitingCycle r).mode = s.mode ∨ ((s.waitingCycle r).mode = .running ∧ s.ports.keys ≠ 0#16) := by
  cases h : scan s.ports.keys with
  | none =>
    rw [s.waitingCycle_of_scan_none r h]
    exact .inl rfl
  | some k =>
    rw [s.waitingCycle_of_scan_some r k h]
    refine .inr ⟨rfl, fun hkeys => ?_⟩
    rw [hkeys, scan_zero] at h
    cases h

theorem State.waitingCycle_quiet (s : State) (r : RegNum) (hbegins : s.cycleBegins) (hmode : s.mode = .waitingForKey r) :
    Quiet s (s.popAgenda.waitingCycle r) := by
  have hleft : (s.popAgenda.waitingCycle r).mode = s.mode ∨
      (s.cycleBegins ∧ (s.popAgenda.waitingCycle r).mode = .running ∧ (∃ q, s.mode = .waitingForKey q) ∧
        s.ports.keys ≠ 0#16) :=
    (s.popAgenda.waitingCycle_mode r).imp_right fun ⟨hrun, hkeys⟩ => ⟨hbegins, hrun, ⟨r, hmode⟩, hkeys⟩
  rw [s.popAgenda.waitingCycle_frame r] at hleft ⊢
  exact ⟨rfl, rfl, rfl, rfl, rfl, rfl, rfl, hleft, .inr rfl, id⟩

/-- The turns of the other agents write pending ticks, input ports and the environment only. -/
theorem Quiet.of_inputs (s : State) (n : Nat) (p : Ports) (e : Env) (hframe : p.frameOut = s.ports.frameOut)
    (hshutdown : p.shutdown = s.ports.shutdown) : Quiet s { s with pendingTicks := n, ports := p, env := e } := by
  refine ⟨rfl, rfl, rfl, rfl, rfl, rfl, rfl, .inl rfl, .inl hframe, fun hs => ?_⟩
  rwa [State.shutdownShowsStop, hshutdown]

/-- Every next state of a step: nothing completed, or an instruction completed and was serviced. -/
theorem step_quiet_or_completes (s t : State) (h : step s = .next t) :
    Quiet s t ∨ ∃ i u, s.runs i ∧ exec i s.executing = .next u ∧ t = u.service := by
  obtain ⟨hturn, he⟩ | ⟨-, rfl⟩ | ⟨-, rfl⟩ | ⟨k, -, rfl⟩ | ⟨-, rfl⟩ | ⟨b, -, rfl⟩ := step_cases s t h
  case inl =>
    obtain ⟨hrun, ⟨-, rfl⟩ | ⟨hbegins, r, hmode, rfl⟩ | ⟨-, -, f, rfl⟩ | hdone⟩ := engineTurn_cases s t hturn he
    · exact .inl ⟨rfl, rfl, rfl, rfl, rfl, rfl, rfl, .inl rfl, .inl rfl, fun _ => rfl⟩
    · exact .inl (s.waitingCycle_quiet r hbegins hmode)
    · refine .inl ⟨rfl, rfl, rfl, rfl, rfl, rfl, rfl, .inl rfl, .inl rfl, fun hs => ?_⟩
      simpa [State.shutdownShowsStop, hrun] using hs
    · exact .inr hdone
  case inr.inl =>
    obtain ⟨hframe, -⟩ := s.popAgenda.tickStep_frame
    rw [hframe]
    exact .inl (Quiet.of_inputs s _ _ _ rfl rfl)
  case inr.inr.inl =>
    rw [s.popAgenda.observeShutdownStep_frame]
    exact .inl (Quiet.of_inputs s _ _ _ rfl rfl)
  all_goals exact .inl (Quiet.of_inputs s _ _ _ rfl rfl)

/-! ### The invariant -/

/-- A push below the capacity stays within it, and a pop only takes away. -/
theorem State.stackBounded_of_effect (i : Instr) (s u : State) (heff : Effect i s u) (hparams : u.params = s.params)
    (h : s.stackBounded = true) : u.stackBounded = true := by
  unfold State.stackBounded at h ⊢
  rw [hparams]
  cases hcap : s.params.stackCapacity with
  | none => rfl
  | some c =>
    simp only [hcap, decide_eq_true_eq] at h ⊢
    obtain hkept | ⟨-, -, hroom, hpush⟩ | ⟨-, w, hpop, -⟩ := heff.stack
    · rwa [hkept]
    · have hne : c ≠ s.stack.length := fun hc => by
        have hfull := s.stackFull_iff.mpr (hcap.trans (congrArg some hc))
        rw [hroom] at hfull
        cases hfull
      rw [hpush, List.length_append, List.length_singleton]
      omega
    · rw [hpop, List.length_append] at h
      omega

theorem Quiet.inv (s t : State) (hq : Quiet s t) (hinv : s.Inv) : t.Inv := by
  obtain ⟨hmem, hstack, hbuzzer, hframe, hshutdown, hparams⟩ := hinv
  refine ⟨hq.mem ▸ hmem, ?_, ?_, ?_, hq.shutdown hshutdown, hq.params ▸ hparams⟩
  · rwa [State.stackBounded, hq.params, hq.stack]
  · rwa [State.buzzerShowsSt, hq.buzzer, hq.st]
  · have hgrid : s.ports.frameOut = s.grid := eq_of_beq hframe
    rw [State.frameShowsGrid, hq.grid, beq_iff_eq]
    exact hq.frame.elim (·.trans hgrid) id

theorem State.inv_of_completes (s u : State) (i : Instr) (hexec : exec i s.executing = .next u)
    (hinv : s.Inv) : u.service.Inv := by
  obtain ⟨hmem, hstack, -, -, hshutdown, hparams⟩ := hinv
  have heff := exec_effect i s.executing u hexec
  obtain ⟨hp, hports, hstatus⟩ := exec_keeps i s.executing u hexec
  have hbounded := State.stackBounded_of_effect i s.executing u heff hp hstack
  refine ⟨?_, ?_, ?_, ?_, ?_, ?_⟩
  · rw [State.service_mem]
    exact heff.mem hmem
  · rwa [State.stackBounded, State.service_params, State.service_stack]
  · simp [State.buzzerShowsSt]
  · simp [State.frameShowsGrid]
  · rw [State.shutdownShowsStop, State.service_ports, State.service_status, hports, hstatus]
    exact hshutdown
  · rw [State.service_params, hp]
    exact hparams

/-- Settles O23: a quiet step keeps what the invariant speaks of, and after an instruction service sets the outputs. -/
theorem everyStepKeepsTheInvariant : Obligations.EveryStepKeepsTheInvariant := by
  intro s t hinv hstep
  obtain hq | ⟨i, u, -, hexec, rfl⟩ := step_quiet_or_completes s t hstep
  · exact hq.inv s t hinv
  · exact s.inv_of_completes u i hexec hinv

/-- Settles O22: the invariant at reset, evaluated. -/
theorem resetMeetsTheInvariant : Obligations.ResetMeetsTheInvariant := by
  unfold Obligations.ResetMeetsTheInvariant
  decide

/-! ### Who may change what -/

/-- Settles O32: neither a quiet step nor an instruction nor service writes the parameters. -/
theorem noStepChangesTheParameters : Obligations.NoStepChangesTheParameters := by
  intro s t hstep
  obtain hq | ⟨i, u, -, hexec, rfl⟩ := step_quiet_or_completes s t hstep
  · exact hq.params
  · rw [State.service_params, (exec_keeps i s.executing u hexec).1]
    rfl

/-- Settles O25: a step that changes the grid completes an instruction, whose effect names the two. -/
theorem onlyClsAndDrwChangeTheGrid : Obligations.OnlyClsAndDrwChangeTheGrid := by
  intro s t hstep hne
  obtain hq | ⟨i, u, hruns, hexec, rfl⟩ := step_quiet_or_completes s t hstep
  · exact absurd hq.grid hne
  · rw [State.service_grid] at hne
    obtain hkept | rfl | ⟨x, y, n, rfl⟩ := (exec_effect i s.executing u hexec).grid
    · exact absurd hkept hne
    · exact .inl hruns
    · exact .inr ⟨x, y, n, hruns⟩

/-- Settles O26: a step that changes the stack completes an instruction, whose effect is a push or a pop. -/
theorem onlyCallAndRetChangeTheStack : Obligations.OnlyCallAndRetChangeTheStack := by
  intro s t hstep hne
  obtain hq | ⟨i, u, hruns, hexec, rfl⟩ := step_quiet_or_completes s t hstep
  · exact absurd hq.stack hne
  · rw [State.service_stack] at hne ⊢
    rw [State.service_pc]
    obtain hkept | ⟨nnn, rfl, -, hpush⟩ | ⟨rfl, hpop⟩ := (exec_effect i s.executing u hexec).stack
    · exact absurd hkept hne
    · exact .inl ⟨nnn, hruns, hpush⟩
    · exact .inr ⟨hruns, hpop⟩

/-- Settles O27: a quiet step changes the mode only by leaving the wait, an instruction only by entering it. -/
theorem onlyTheKeyWaitChangesTheMode : Obligations.OnlyTheKeyWaitChangesTheMode := by
  intro s t hstep hne
  obtain hq | ⟨i, u, hruns, hexec, rfl⟩ := step_quiet_or_completes s t hstep
  · exact .inr (hq.mode.resolve_left hne)
  · rw [State.service_mode] at hne ⊢
    obtain ⟨x, rfl, hwait⟩ := (exec_effect i s.executing u hexec).mode.resolve_left hne
    exact .inl ⟨x, hruns, hwait⟩

theorem toNat_satdec_of_ne (t : Byte) (h : satdec t ≠ t) : (satdec t).toNat + 1 = t.toNat := by
  have hpos : t.toNat ≠ 0 := fun h0 => h (if_pos (BitVec.eq_of_toNat_eq h0) |>.trans (BitVec.eq_of_toNat_eq h0).symm)
  rw [toNat_satdec]
  omega

/-- A poll that changes a timer takes the tick and one off the timer. -/
theorem State.pollTick_of_timer_changed (u : State) (h : u.pollTick.dt ≠ u.dt ∨ u.pollTick.st ≠ u.st) :
    0 < u.pendingTicks ∧ u.pollTick.pendingTicks + 1 = u.pendingTicks ∧ u.pollTick.dt = satdec u.dt ∧
      u.pollTick.st = satdec u.st := by
  have hpos : 0 < u.pendingTicks := by
    refine Nat.pos_of_ne_zero fun h0 => ?_
    rw [u.pollTick_of_no_tick h0] at h
    exact h.elim (· rfl) (· rfl)
  rw [u.pollTick_of_tick hpos]
  exact ⟨hpos, Nat.sub_add_cancel hpos, rfl, rfl⟩

/-- Settles O28: a timer that FX15 or FX18 has not written is changed by the poll only. -/
theorem timersChangeOnlyByWritesAndTicks : Obligations.TimersChangeOnlyByWritesAndTicks := by
  intro s t hstep
  obtain hq | ⟨i, u, hruns, hexec, rfl⟩ := step_quiet_or_completes s t hstep
  · exact ⟨absurd hq.dt, absurd hq.st⟩
  have heff := exec_effect i s.executing u hexec
  have hticks : u.pendingTicks = s.pendingTicks := exec_pendingTicks i s.executing u hexec
  rw [State.service_dt, State.service_st, State.service_pendingTicks, ← hticks]
  refine ⟨fun hne => ?_, fun hne => ?_⟩
  · obtain hkept | ⟨x, rfl⟩ := heff.dt
    · have hdt : s.dt = u.dt := hkept.symm
      rw [hdt] at hne ⊢
      obtain ⟨hpos, htaken, hdec, -⟩ := u.pollTick_of_timer_changed (.inl hne)
      rw [hdec] at hne ⊢
      exact .inr ⟨hpos, htaken, toNat_satdec_of_ne u.dt hne⟩
    · exact .inl ⟨x, hruns⟩
  · obtain hkept | ⟨x, rfl⟩ := heff.st
    · have hst : s.st = u.st := hkept.symm
      rw [hst] at hne ⊢
      obtain ⟨hpos, htaken, -, hdec⟩ := u.pollTick_of_timer_changed (.inr hne)
      rw [hdec] at hne ⊢
      exact .inr ⟨hpos, htaken, toNat_satdec_of_ne u.st hne⟩
    · exact .inl ⟨x, hruns⟩

/-- A call that does not end the run has pushed the address after it. -/
theorem stack_of_call_step (s t : State) (nnn : Addr12) (hcall : s.runs (.call nnn)) (hstep : step s = .next t)
    (hrun : t.status = .run) : t.stack = s.stack ++ [s.pc + 2#16] := by
  obtain ⟨u, hu, -⟩ | ⟨f, hf⟩ := exec_cases (.call nnn) s.executing
  · cases (step_of_runs s u _ hcall hu).symm.trans hstep
    rw [exec_call, push_next] at hu
    obtain ⟨-, hk⟩ := hu
    cases hk
    rw [State.service_stack]
    rfl
  · cases (step_of_runs_fault s _ f hcall hf).symm.trans hstep
    cases hrun

/-- Settles O37: the return takes off the stack the address that the call has put on it. -/
theorem returnGoesToTheWordAfterTheCall : Obligations.ReturnGoesToTheWordAfterTheCall := by
  intro s t u nnn hcall hstepCall hrun hret hstepRet
  have htop : t.executing.stack = s.stack ++ [s.pc + 2#16] := stack_of_call_step s t nnn hcall hstepCall hrun
  have hexec : exec .ret t.executing = .next ((t.executing.setStack s.stack).setPc (s.pc + 2#16)) := by
    rw [exec_ret, pop_of_concat _ _ _ _ htop]
  cases (step_of_runs t _ .ret hret hexec).symm.trans hstepRet
  rw [State.service_pc, State.service_stack, State.service_status]
  exact ⟨rfl, rfl, hrun⟩

end Sys2Proof.Machine
end

section
/-! PROOFS. What an instruction does not read: other values in the timers, the grid, pending ticks and the buzzer leave what
it answers the same but for those fields (spec/10_state.md section 6; spec/60_exceptions.md R137, R143). -/

namespace Sys2Proof.Machine

/-! ### A change of the fields that instructions hardly read -/

/-- A change of the timers, the grid, pending ticks and the buzzer, each on its own. -/
structure Remap where
  dt : Byte → Byte
  st : Byte → Byte
  grid : Grid → Grid
  pendingTicks : Nat → Nat
  buzzer : Bool → Bool

/-- The change that changes nothing. -/
def Remap.none : Remap := { dt := id, st := id, grid := id, pendingTicks := id, buzzer := id }

/-- The state with the change made. -/
def Remap.apply (m : Remap) (s : State) : State :=
  { s with dt := m.dt s.dt, st := m.st s.st, grid := m.grid s.grid, pendingTicks := m.pendingTicks s.pendingTicks,
           buzzer := m.buzzer s.buzzer }

/-- What is left of the change after an instruction: a field that the instruction writes no longer shows it. -/
def Remap.after (m : Remap) : Instr → Remap
  | .cls => { m with grid := id }
  | .ldDtVx _ => { m with dt := id }
  | .ldStVx _ => { m with st := id }
  | _ => m

/-- A change of the state an outcome answers; faults and refusals stay. -/
def mapNext (f : State → State) : Out → Out
  | .next t => .next (f t)
  | .fault r => .fault r
  | .refused r => .refused r

/-! ### The shared operations under a change -/

theorem State.skipIf_remap (m : Remap) (s : State) (c : Bool) : (m.apply s).skipIf c = m.apply (s.skipIf c) := by
  cases c <;> rfl

theorem State.writeRF_remap (m : Remap) (s : State) (x : RegNum) (b : Byte) (c : Bool) :
    (m.apply s).writeRF x b c = m.apply (s.writeRF x b c) := by
  cases h : s.params.vfOrder <;> simp only [State.writeRF, Remap.apply, h] <;> rfl

theorem State.loadBlock_remap (m : Remap) (s : State) (x : RegNum) :
    (m.apply s).loadBlock x = m.apply (s.loadBlock x) := by
  simp [State.loadBlock, Remap.apply]

theorem State.advanceI_remap (m : Remap) (s : State) (n : Nat) :
    (m.apply s).advanceI n = m.apply (s.advanceI n) := rfl

theorem withKey_remap (m : Remap) (s : State) (x : RegNum) (k : Bool → Out) :
    withKey (m.apply s) x k = withKey s x k := rfl

theorem push_remap (m : Remap) (s : State) (w : Word) (k : State → Out) :
    push (m.apply s) w k = push s w fun t => k (m.apply t) := rfl

theorem pop_remap (m : Remap) (s : State) (k : Word → State → Out) :
    pop (m.apply s) k = pop s fun w t => k w (m.apply t) := rfl

theorem mapNext_checked (f : State → State) (first n : Nat) (k : Out) :
    mapNext f (checked first n k) = checked first n (mapNext f k) := by
  unfold checked
  split <;> rfl

theorem mapNext_withKey (f : State → State) (s : State) (x : RegNum) (k : Bool → Out) :
    mapNext f (withKey s x k) = withKey s x fun c => mapNext f (k c) := by
  unfold withKey
  split <;> rfl

theorem mapNext_push (f : State → State) (s : State) (w : Word) (k : State → Out) :
    mapNext f (push s w k) = push s w fun t => mapNext f (k t) := by
  unfold push
  split <;> rfl

theorem mapNext_pop (f : State → State) (s : State) (k : Word → State → Out) :
    mapNext f (pop s k) = pop s fun w t => mapNext f (k w t) := by
  unfold pop
  split <;> rfl

/-! ### The instructions under a change -/

/-- Every instruction commutes with a change, where FX07 wants `DT` and DXYN the grid unchanged. -/
theorem exec_remap (m : Remap) (i : Instr) (s : State) (hdt : m.dt = id ∨ ∀ x, i ≠ .ldVxDt x)
    (hgrid : m.grid = id ∨ ∀ x y n, i ≠ .drw x y n) :
    exec i (m.apply s) = mapNext (m.after i).apply (exec i s) := by
  cases i with
  | ret => rw [exec_ret, exec_ret, mapNext_pop, pop_remap]; rfl
  | call nnn => rw [exec_call, exec_call, mapNext_push, push_remap]; rfl
  | skp x => simp only [exec_skp, mapNext_withKey, withKey_remap, State.skipIf_remap]; rfl
  | sknp x => simp only [exec_sknp, mapNext_withKey, withKey_remap, State.skipIf_remap]; rfl
  | seImm x nn | sneImm x nn => exact congrArg Host.Outcome.next (s.skipIf_remap m _)
  | seReg x y | sneReg x y => exact congrArg Host.Outcome.next (s.skipIf_remap m _)
  | addReg x y | sub x y | shr x y | subn x y | shl x y => exact congrArg Host.Outcome.next (s.writeRF_remap m x _ _)
  | ldVxDt x =>
    obtain ⟨dt, st, grid, ticks, buzzer⟩ := m
    obtain rfl : dt = id := hdt.resolve_right fun h => h x rfl
    rfl
  | drw x y n =>
    obtain ⟨dt, st, grid, ticks, buzzer⟩ := m
    obtain rfl : grid = id := hgrid.resolve_right fun h => h x y n rfl
    simp only [exec, execDrw, mapNext_checked]
    rfl
  | ldB x | ldIVx x =>
    simp only [exec, execLdB, execLdIVx, mapNext_checked]
    rfl
  | ldVxI x =>
    simp only [exec, execLdVxI, mapNext_checked, State.loadBlock_remap, State.advanceI_remap]
    rfl
  | _ => rfl

/-- What a changed state answers, from what the state itself answers. -/
theorem exec_remap_answers (m : Remap) (i : Instr) (s : State) (hdt : m.dt = id ∨ ∀ x, i ≠ .ldVxDt x)
    (hgrid : m.grid = id ∨ ∀ x y n, i ≠ .drw x y n) :
    (∀ t, exec i s = .next t → exec i (m.apply s) = .next ((m.after i).apply t)) ∧
    (∀ f, exec i s = .fault f → exec i (m.apply s) = .fault f) := by
  rw [exec_remap m i s hdt hgrid]
  exact ⟨fun t h => congrArg _ h, fun f h => congrArg _ h⟩

/-- Another value in `ST`. -/
def Remap.ofSt (b : Byte) : Remap := { Remap.none with st := fun _ => b }

/-- Another value in `DT`. -/
def Remap.ofDt (b : Byte) : Remap := { Remap.none with dt := fun _ => b }

/-- Another grid. -/
def Remap.ofGrid (g : Grid) : Remap := { Remap.none with grid := fun _ => g }

/-- Other pending ticks and another buzzer. -/
def Remap.ofTicksAndBuzzer (n : Nat) (b : Bool) : Remap :=
  { Remap.none with pendingTicks := fun _ => n, buzzer := fun _ => b }

/-- Whatever the instruction, of another `ST` at most an `ST` is left. -/
theorem Remap.ofSt_after_apply (b : Byte) (i : Instr) (t : State) :
    ∃ c, ((Remap.ofSt b).after i).apply t = { t with st := c } := by
  cases i <;> exact ⟨_, rfl⟩

theorem Remap.ofDt_after_apply (b : Byte) (i : Instr) (t : State) :
    ∃ c, ((Remap.ofDt b).after i).apply t = { t with dt := c } := by
  cases i <;> exact ⟨_, rfl⟩

theorem Remap.ofGrid_after_apply (g : Grid) (i : Instr) (t : State) :
    ∃ g', ((Remap.ofGrid g).after i).apply t = { t with grid := g' } := by
  cases i <;> exact ⟨_, rfl⟩

/-- No instruction writes pending ticks or the buzzer. -/
theorem Remap.ofTicksAndBuzzer_after_apply (n : Nat) (b : Bool) (i : Instr) (t : State) :
    ((Remap.ofTicksAndBuzzer n b).after i).apply t = { t with pendingTicks := n, buzzer := b } := by
  cases i <;> rfl

/-! ### The statements -/

/-- Settles O29: every instruction commutes with another `ST`, and every one but FX07 with another `DT`. -/
theorem timersAreReadOnlyByFx07 : Obligations.TimersAreReadOnlyByFx07 := by
  intro i s b
  obtain ⟨hnext, hfault⟩ := exec_remap_answers (Remap.ofSt b) i s (.inl rfl) (.inl rfl)
  refine ⟨fun t ht => ?_, hfault, fun hread => ?_⟩
  · obtain ⟨c, hc⟩ := Remap.ofSt_after_apply b i t
    exact ⟨c, (hnext t ht).trans (congrArg _ hc)⟩
  · obtain ⟨hnext, hfault⟩ := exec_remap_answers (Remap.ofDt b) i s (.inr hread) (.inl rfl)
    refine ⟨fun t ht => ?_, hfault⟩
    obtain ⟨c, hc⟩ := Remap.ofDt_after_apply b i t
    exact ⟨c, (hnext t ht).trans (congrArg _ hc)⟩

/-- Settles O30: every instruction commutes with other pending ticks and another buzzer, and every one but DXYN with
another grid. -/
theorem gridIsReadOnlyByDrw : Obligations.GridIsReadOnlyByDrw := by
  intro i s g n b
  obtain ⟨hnext, hfault⟩ := exec_remap_answers (Remap.ofTicksAndBuzzer n b) i s (.inl rfl) (.inl rfl)
  refine ⟨fun hread => ?_, fun t ht => ?_, hfault⟩
  · obtain ⟨hnext, hfault⟩ := exec_remap_answers (Remap.ofGrid g) i s (.inl rfl) (.inr hread)
    refine ⟨fun t ht => ?_, hfault⟩
    obtain ⟨g', hg⟩ := Remap.ofGrid_after_apply g i t
    exact ⟨g', (hnext t ht).trans (congrArg _ hg)⟩
  · exact (hnext t ht).trans (congrArg _ (Remap.ofTicksAndBuzzer_after_apply n b i t))

end Sys2Proof.Machine
end

section
/-! PROOFS. Reset and startup (spec/70_reset_and_hazards.md R150 to R152; spec/10_state.md R35). -/

namespace Sys2Proof.Machine

/-! ### The bytes of a startup, by the part of memory -/

theorem startupByte_font (font : Vector Byte Config.fontBytes) (fill : Nat → Byte) (image : List Byte) (k : Nat)
    (h : k < 80) : startupByte font fill image k = font[k] :=
  dif_pos h

theorem startupByte_image (font : Vector Byte Config.fontBytes) (fill : Nat → Byte) (image : List Byte) (k : Nat)
    (h : k < image.length) : startupByte font fill image (0x200 + k) = image[k] := by
  have hfont : ¬ 0x200 + k < 80 := by omega
  have himage : Config.programBase ≤ 0x200 + k ∧ 0x200 + k < Config.programBase + image.length :=
    ⟨Nat.le_add_right _ _, Nat.add_lt_add_left h _⟩
  rw [startupByte, dif_neg hfont, if_pos himage, show 0x200 + k - Config.programBase = k from Nat.add_sub_cancel_left ..]
  exact (List.getElem_eq_getD _).symm

theorem startupByte_fill (font : Vector Byte Config.fontBytes) (fill : Nat → Byte) (image : List Byte) (a : Nat)
    (hfont : 80 ≤ a) (himage : ¬(0x200 ≤ a ∧ a < 0x200 + image.length)) : startupByte font fill image a = fill a := by
  rw [startupByte, dif_neg (Nat.not_lt.mpr hfont)]
  exact if_neg himage

/-! ### The statements -/

/-- The state after a good startup meets the invariant when the parameters are legal. -/
theorem State.inv_of_fresh (p : Params) (m : Memory) (hwf : m.wf = true) (hp : 1 ≤ p.cpuHz) :
    State.Inv { State.reset with params := p, mem := m } := by
  refine ⟨hwf, ?_, rfl, beq_self_eq_true _, rfl, decide_eq_true hp⟩
  unfold State.stackBounded
  split
  · rfl
  · exact decide_eq_true (Nat.zero_le _)

/-- Settles O20: each address of the image and the font lies in the part of memory that startup fills from it. -/
theorem startupLoadsTheImage : Obligations.StartupLoadsTheImage := by
  intro p font fill image hfits t
  have ht : t = _ := State.startup_ok p font fill image (decide_eq_true hfits)
  clear_value t
  subst ht
  have hread (a : Nat) (ha : a < 4096) :
      (Memory.ofBytes (startupByte font fill image)).read a = startupByte font fill image a :=
    Memory.read_ofBytes _ a ha
  refine ⟨rfl, rfl, rfl, rfl, rfl, rfl, fun k hk => ?_, fun k hk => ?_, fun a hfont ha himage => ?_, fun hp => ?_⟩
  · dsimp only
    rw [hread k (by omega), startupByte_font font fill image k hk]
  · dsimp only
    rw [hread (0x200 + k) (by omega), startupByte_image font fill image k hk]
  · dsimp only
    rw [hread a ha, startupByte_fill font fill image a hfont himage]
  · exact State.inv_of_fresh p _ (Memory.wf_ofBytes _) hp

/-- Each missing resource, and an image that does not fit, end the startup in a failure. -/
theorem State.startup_fails (p : Params) (font : Vector Byte Config.fontBytes) (fill : Nat → Byte) (inp : StartupInputs)
    (h : inp.display = false ∨ inp.audio = false ∨ inp.image = none ∨ ∃ b, inp.image = some b ∧ 3584 < b.length) :
    ∃ reason, State.startup p font fill inp = State.loadFailed reason := by
  unfold State.startup
  split
  · exact ⟨_, rfl⟩
  next hdisplay =>
  split
  · exact ⟨_, rfl⟩
  next haudio =>
  split
  · exact ⟨_, rfl⟩
  next image himage =>
  obtain ⟨b, hb, hlong⟩ := ((h.resolve_left hdisplay).resolve_left haudio).resolve_left (by simp [himage])
  cases himage.symm.trans hb
  have hwf : ¬ wellFormedImage image = true := mt of_decide_eq_true (Nat.not_le.mpr hlong)
  exact ⟨_, if_neg hwf⟩

/-- Settles O21: the state of a failed startup is not running, so its engine's turn begins no cycle. -/
theorem failedStartupRunsNoCycle : Obligations.FailedStartupRunsNoCycle := by
  intro p font fill inp h
  obtain ⟨reason, hfailed⟩ := State.startup_fails p font fill inp h
  rw [hfailed]
  exact ⟨reason, rfl, rfl, rfl⟩

theorem unlisted_above_font (a : Nat) (h : 0x50 ≤ a) : Memory.unlisted a = 0#8 := by
  have hlen : fontTable.length ≤ a - Config.fontBase := h
  exact List.getD_eq_default _ _ hlen

/-- Settles O19, field by field; memory lists nothing, so it reads as unlisted. -/
theorem resetState : Obligations.ResetState := by
  refine ⟨rfl, rfl, rfl, rfl, rfl, rfl, fun r => ?_, rfl, rfl, rfl, Grid.pixel_off, unlisted_above_font, by decide, rfl, rfl⟩
  exact Vector.getElem_replicate ..

end Sys2Proof.Machine
end

section
/-! PROOFS. DXYN (spec/43_family_A_to_D.md R105 to R110): its pixels, its collision, and the second draw of a sprite. -/

namespace Sys2Proof.Machine

theorem decodeWord_drw (x y : RegNum) (n : RowCount) : decodeWord (formatXYS 0xD#4 x y n) = .ok (.drw x y n) := by
  simp [decodeWord]

/-! ### The drawing -/

/-- Each pixel is flipped iff the sprite covers it (R106, R108). -/
theorem State.drawn_pixel (s : State) (x y : RegNum) (n : RowCount) (px : Fin 64) (py : Fin 32) :
    (s.drawn x y n).1.pixel px py = (s.grid.pixel px py ^^
      s.spriteCovers ((s.getV x).toNat % 64) ((s.getV y).toNat % 32) n.toNat px.val py.val) :=
  drawRows_pixel s.mem s.i.toNat n.toNat _ _ (s.grid, false) px py

/-- The collision is that some pixel goes from on to off (R106). -/
theorem State.drawn_hit (s : State) (x y : RegNum) (n : RowCount) :
    (s.drawn x y n).2 = true ↔
      ∃ px py, s.grid.pixel px py = true ∧ (s.drawn x y n).1.pixel px py = false := by
  rw [State.drawn, drawSprite, drawRows_hit]
  simp only [Bool.false_eq_true, false_or]

/-- DXYN's next state, which its checked access guards. -/
def State.afterDraw (s : State) (x y : RegNum) (n : RowCount) : State :=
  (s.setV vfNum (flagByte (s.drawn x y n).2)).setGrid (s.drawn x y n).1

theorem exec_drw (x y : RegNum) (n : RowCount) (s : State) :
    exec (.drw x y n) s = checked s.i.toNat n.toNat (.next (s.afterDraw x y n)) := rfl

theorem flagByte_eq_one_iff (c : Bool) : flagByte c = 1#8 ↔ c = true := by
  cases c <;> decide

theorem State.afterDraw_vf (s : State) (x y : RegNum) (n : RowCount) :
    (s.afterDraw x y n).getV vfNum = flagByte (s.drawn x y n).2 :=
  s.getV_setV_same vfNum _

theorem State.afterDraw_getV (s : State) (x y q : RegNum) (n : RowCount) (h : q ≠ vfNum) :
    (s.afterDraw x y n).getV q = s.getV q :=
  s.getV_setV_other vfNum q _ h

/-- Settles O49: the pixels and the collision of the drawing; the write of `VF` comes after both. -/
theorem drwFlipsTheCoveredPixels : Obligations.DrwFlipsTheCoveredPixels := by
  refine fun x y n => ⟨?_, fun s => ⟨fun hin => ?_, fun hpos hout => ?_⟩⟩
  · exact formatXYS_eq_ofNat 0xD#4 x y n ▸ decodeWord_drw x y n
  · rw [exec_drw, checked_of_inRange _ _ _ ((inRange_iff _ _).mpr hin)]
    refine ⟨_, rfl, s.drawn_pixel x y n, ?_, fun r hr => s.afterDraw_getV x y r n (List.ne_of_not_mem_cons hr), rfl⟩
    rw [s.afterDraw_vf x y n]
    cases hhit : (s.drawn x y n).2 with
    | true => exact .inl ⟨rfl, (s.drawn_hit x y n).mp hhit⟩
    | false =>
      refine .inr ⟨rfl, fun px py hon => ?_⟩
      by_contra hoff
      have hcollides := (s.drawn_hit x y n).mpr ⟨px, py, hon, Bool.eq_false_iff.mpr hoff⟩
      cases hhit.symm.trans hcollides
  · rw [exec_drw, checked_of_not_inRange _ _ _ ((inRange_eq_false_iff _ _).mpr ⟨hpos, hout⟩)]
    rfl

/-! ### The second draw -/

/-- The second draw flips the same pixels: it reads the same origin and the same sprite. -/
theorem State.drawn_twice_pixel (s : State) (x y : RegNum) (n : RowCount) (hx : x ≠ vfNum) (hy : y ≠ vfNum)
    (px : Fin 64) (py : Fin 32) :
    ((s.afterDraw x y n).drawn x y n).1.pixel px py = s.grid.pixel px py := by
  have hcovers (a b c d e : Nat) : (s.afterDraw x y n).spriteCovers a b c d e = s.spriteCovers a b c d e := rfl
  have hgrid : (s.afterDraw x y n).grid.pixel px py = (s.drawn x y n).1.pixel px py := rfl
  rw [State.drawn_pixel, s.afterDraw_getV x y x n hx, s.afterDraw_getV x y y n hy, hcovers, hgrid, s.drawn_pixel,
    Bool.xor_assoc, Bool.xor_self, Bool.xor_false]

/-- The second draw collides where the first has turned a pixel on. -/
theorem State.drawn_twice_hit (s : State) (x y : RegNum) (n : RowCount) (hx : x ≠ vfNum) (hy : y ≠ vfNum) :
    ((s.afterDraw x y n).drawn x y n).2 = true ↔
      ∃ px py, s.grid.pixel px py = false ∧ (s.afterDraw x y n).grid.pixel px py = true := by
  rw [State.drawn_hit]
  simp only [s.drawn_twice_pixel x y n hx hy, and_comm]

/-- Settles O50: the second draw flips back what the first has flipped, and collides with what the first turned on. -/
theorem drawingTwiceRestoresTheGrid : Obligations.DrawingTwiceRestoresTheGrid := by
  intro x y n s t u hx hy hfirst hsecond
  rw [exec_drw, checked_next] at hfirst hsecond
  obtain ⟨-, hfirst⟩ := hfirst
  obtain ⟨-, hsecond⟩ := hsecond
  cases hfirst
  cases hsecond
  have hcollision : ((s.afterDraw x y n).afterDraw x y n).getV vfNum = 1#8 ↔
      ∃ px py, s.grid.pixel px py = false ∧ (s.afterDraw x y n).grid.pixel px py = true := by
    rw [State.afterDraw_vf, flagByte_eq_one_iff, s.drawn_twice_hit x y n hx hy]
  refine ⟨Grid.ext_pixel _ _ (s.drawn_twice_pixel x y n hx hy), hcollision, fun hclear => ?_⟩
  have hpixel (px : Fin 64) (py : Fin 32) : (s.afterDraw x y n).grid.pixel px py = _ := s.drawn_pixel x y n px py
  rw [hcollision]
  simp only [hpixel, hclear, Grid.pixel_off, Bool.false_xor, true_and]

end Sys2Proof.Machine
end

section
/-! PROOFS. FX33, FX55 and FX65 (spec/44_family_E_F.md R119 to R121): the bytes they move between registers and memory, and
that a stored block loads back. -/

namespace Sys2Proof.Machine

theorem decodeFamilyF_ldB (x : RegNum) : decodeFamilyF (formatXNN 0xF#4 x 0x33#8) = .ok (.ldB x) := by
  simp [decodeFamilyF]

theorem decodeFamilyF_ldIVx (x : RegNum) : decodeFamilyF (formatXNN 0xF#4 x 0x55#8) = .ok (.ldIVx x) := by
  simp [decodeFamilyF]

theorem decodeFamilyF_ldVxI (x : RegNum) : decodeFamilyF (formatXNN 0xF#4 x 0x65#8) = .ok (.ldVxI x) := by
  simp [decodeFamilyF]

/-! ### The next states, which a checked access guards -/

/-- FX33's next state. -/
def State.storeDigits (s : State) (x : RegNum) : State := s.setMem (s.mem.writeList s.i.toNat (bcdBytes (s.getV x)))

/-- FX55's next state. -/
def State.storeBlock (s : State) (x : RegNum) : State :=
  (s.setMem (s.mem.writeList s.i.toNat (s.blockRegs x))).advanceI (blockCount x)

/-- FX65's next state. -/
def State.loadedBlock (s : State) (x : RegNum) : State := (s.loadBlock x).advanceI (blockCount x)

theorem exec_ldB (x : RegNum) (s : State) : exec (.ldB x) s = checked s.i.toNat 3 (.next (s.storeDigits x)) := rfl

theorem exec_ldIVx (x : RegNum) (s : State) :
    exec (.ldIVx x) s = checked s.i.toNat (blockCount x) (.next (s.storeBlock x)) := rfl

theorem exec_ldVxI (x : RegNum) (s : State) :
    exec (.ldVxI x) s = checked s.i.toNat (blockCount x) (.next (s.loadedBlock x)) := rfl

theorem checked_of_fits (first n : Nat) (k : Out) (h : first + n ≤ 4096) : checked first n k = k :=
  checked_of_inRange _ _ _ ((inRange_iff _ _).mpr (.inr h))

/-- An access whose last byte lies outside memory. -/
theorem checked_of_exceeds (first n : Nat) (k : Out) (h : 4096 ≤ first + n) :
    checked first (n + 1) k = .fault (.raised (.memoryRange (max first 4096))) :=
  checked_of_not_inRange _ _ _ ((inRange_eq_false_iff _ _).mpr ⟨Nat.succ_pos n, Nat.lt_succ_of_le h⟩)

/-- A store of consecutive bytes changes memory in their addresses only. -/
theorem State.memKeptOutside_writeList (s t : State) (a : Nat) (bs : List Byte) (h : t.mem = s.mem.writeList a bs) :
    s.memKeptOutside t a bs.length := by
  intro b hb
  rw [h, s.mem.read_writeList_outside a b bs hb]

/-! ### The decimal digits -/

theorem toNat_bcdHundreds (v : Byte) : (bcdHundreds v).toNat = v.toNat / 100 := by
  have hv := v.isLt
  rw [bcdHundreds, BitVec.toNat_ofNat]
  omega

theorem toNat_bcdTens (v : Byte) : (bcdTens v).toNat = v.toNat / 10 % 10 := by
  rw [bcdTens, BitVec.toNat_ofNat]
  omega

theorem toNat_bcdOnes (v : Byte) : (bcdOnes v).toNat = v.toNat % 10 := by
  rw [bcdOnes, BitVec.toNat_ofNat]
  omega

/-- Settles O56: the three bytes stored read back, and nothing outside them is written. -/
theorem ldBStoresTheDecimalDigits : Obligations.LdBStoresTheDecimalDigits := by
  refine fun x => ⟨(decodeWord_familyF x 0x33#8).trans (decodeFamilyF_ldB x), fun s => ⟨fun hin => ?_, fun hout => ?_⟩⟩
  · rw [exec_ldB, checked_of_fits _ _ _ (by omega)]
    refine ⟨_, rfl, s.memKeptOutside_writeList _ _ (bcdBytes (s.getV x)) rfl, rfl, fun hwf => ?_⟩
    have hread (k : Nat) (hk : k < 3) : (s.storeDigits x).mem.read (s.i.toNat + k) = (bcdBytes (s.getV x))[k] :=
      s.mem.read_writeList_inside s.i.toNat k (bcdBytes (s.getV x)) hk (Nat.succ_le_of_lt hin) hwf
    refine ⟨?_, ?_, ?_⟩
    · exact (congrArg BitVec.toNat (hread 0 (by decide))).trans (toNat_bcdHundreds _)
    · exact (congrArg BitVec.toNat (hread 1 (by decide))).trans (toNat_bcdTens _)
    · exact (congrArg BitVec.toNat (hread 2 (by decide))).trans (toNat_bcdOnes _)
  · exact checked_of_exceeds s.i.toNat 2 _ hout

/-! ### The block moves -/

/-- The advance of `I` after a block inside memory does not wrap. -/
theorem State.toNat_advanceI (s : State) (x : RegNum) (h : s.i.toNat + x.toNat < 4096) :
    (s.advanceI (blockCount x)).i.toNat = s.i.toNat + x.toNat + 1 := by
  rw [State.advanceI_i, BitVec.toNat_add, BitVec.toNat_ofNat, blockCount]
  omega

theorem State.getElem_blockRegs (s : State) (x r : RegNum) (h : r.toNat < (s.blockRegs x).length) :
    (s.blockRegs x)[r.toNat] = s.getV r := by
  simp [State.blockRegs]

theorem State.loadedBlock_getV (s : State) (x r : RegNum) :
    (s.loadedBlock x).getV r = if r.toNat ≤ x.toNat then s.mem.read (s.i.toNat + r.toNat) else s.getV r := by
  rw [State.loadedBlock, State.advanceI_getV]
  simp [State.loadBlock, State.getV, blockCount]

theorem State.loadedBlock_i (s : State) (x : RegNum) : (s.loadedBlock x).i = (s.advanceI (blockCount x)).i := by
  rw [State.loadedBlock, State.advanceI_i, State.advanceI_i, State.loadBlock_i]

theorem State.loadedBlock_frame (s : State) (x : RegNum) :
    s.loadedBlock x = { s with v := (s.loadedBlock x).v, i := (s.loadedBlock x).i } := by
  simp [State.loadedBlock, State.advanceI, State.setI, State.loadBlock]

/-- With canonical memory each stored register reads back. -/
theorem State.read_storeBlock (s : State) (x r : RegNum) (hin : s.i.toNat + x.toNat < 4096) (hwf : s.mem.wf = true)
    (hr : r.toNat ≤ x.toNat) : (s.storeBlock x).mem.read (s.i.toNat + r.toNat) = s.getV r := by
  have hlen : (s.blockRegs x).length = x.toNat + 1 := s.length_blockRegs x
  have hk : r.toNat < (s.blockRegs x).length := by omega
  have hfits : s.i.toNat + (s.blockRegs x).length ≤ Config.memSize := by
    rw [hlen]
    exact hin
  exact (s.mem.read_writeList_inside _ _ _ hk hfits hwf).trans (s.getElem_blockRegs x r hk)

/-- Settles O57: the block of registers stored reads back, and nothing outside it is written. -/
theorem ldIVxStoresTheRegisters : Obligations.LdIVxStoresTheRegisters := by
  refine fun x => ⟨(decodeWord_familyF x 0x55#8).trans (decodeFamilyF_ldIVx x), fun s => ⟨fun hin => ?_, fun hout => ?_⟩⟩
  · rw [exec_ldIVx, checked_of_fits _ _ _ hin]
    have hkept := s.memKeptOutside_writeList (s.storeBlock x) _ (s.blockRegs x) rfl
    rw [s.length_blockRegs] at hkept
    exact ⟨_, rfl, State.toNat_advanceI _ x hin, hkept, rfl, fun hwf r => s.read_storeBlock x r hin hwf⟩
  · exact checked_of_exceeds s.i.toNat x.toNat _ hout

/-- Settles O58: the block loaded, and the advance of `I`. -/
theorem ldVxILoadsTheRegisters : Obligations.LdVxILoadsTheRegisters := by
  refine fun x => ⟨(decodeWord_familyF x 0x65#8).trans (decodeFamilyF_ldVxI x), fun s => ⟨fun hin => ?_, fun hout => ?_⟩⟩
  · rw [exec_ldVxI, checked_of_fits _ _ _ hin]
    refine ⟨_, rfl, ?_, s.loadedBlock_getV x, s.loadedBlock_frame x⟩
    rw [s.loadedBlock_i x, s.toNat_advanceI x hin]
  · exact checked_of_exceeds s.i.toNat x.toNat _ hout

/-- Settles O59: the load reads each byte that the store has put at its address. -/
theorem storedRegistersLoadBack : Obligations.StoredRegistersLoadBack := by
  intro x s t u between hwf hstore hmem hi hload
  rw [exec_ldIVx, checked_next] at hstore
  rw [exec_ldVxI, checked_next] at hload
  obtain ⟨hrange, hstore⟩ := hstore
  obtain ⟨-, hload⟩ := hload
  cases hstore
  cases hload
  have hin : s.i.toNat + x.toNat < 4096 := ((inRange_iff _ _).mp hrange).resolve_left (Nat.succ_ne_zero _)
  refine ⟨fun r hr => ?_, ?_, State.toNat_advanceI _ x hin⟩
  · rw [between.loadedBlock_getV, if_pos hr, hmem, hi, s.read_storeBlock x r hin hwf hr]
  · rw [between.loadedBlock_i x, State.advanceI_i, hi]
    rfl

end Sys2Proof.Machine
end

section
/-! PROOFS. The instructions 8XY1 to 8XY3, CXNN, EX9E, EXA1, FX0A, FX15, FX18, FX1E and FX29
(spec/42_family_6_to_9.md R91 to R93; spec/43_family_A_to_D.md R103, R104; spec/44_family_E_F.md R111 to R118). -/

namespace Sys2Proof.Machine

/-! ### Decode -/

theorem decodeFamily8_orReg (x y : RegNum) : decodeFamily8 (formatXYS 0x8#4 x y 0x1#4) = .ok (.orReg x y) := by
  simp [decodeFamily8]

theorem decodeFamily8_andReg (x y : RegNum) : decodeFamily8 (formatXYS 0x8#4 x y 0x2#4) = .ok (.andReg x y) := by
  simp [decodeFamily8]

theorem decodeFamily8_xorReg (x y : RegNum) : decodeFamily8 (formatXYS 0x8#4 x y 0x3#4) = .ok (.xorReg x y) := by
  simp [decodeFamily8]

theorem decodeWord_rnd (x : RegNum) (nn : Byte) : decodeWord (formatXNN 0xC#4 x nn) = .ok (.rnd x nn) := by
  simp [decodeWord]

/-- Family E, its words as the statements write them: the function byte added to the family's number (R56). -/
theorem decodeWord_familyE (x : RegNum) (f : Byte) :
    decodeWord (BitVec.ofNat 16 (0xE000 + f.toNat + x.toNat * 256)) = decodeFamilyE (formatXNN 0xE#4 x f) := by
  have hword : BitVec.ofNat 16 (0xE000 + f.toNat + x.toNat * 256) = formatXNN 0xE#4 x f := by
    have hop : (0xE#4).toNat = 14 := rfl
    rw [formatXNN_eq_ofNat, hop]
    exact congrArg (BitVec.ofNat 16) (by omega)
  simp [hword, decodeWord]

theorem decodeFamilyE_skp (x : RegNum) : decodeFamilyE (formatXNN 0xE#4 x 0x9E#8) = .ok (.skp x) := by
  simp [decodeFamilyE]

theorem decodeFamilyE_sknp (x : RegNum) : decodeFamilyE (formatXNN 0xE#4 x 0xA1#8) = .ok (.sknp x) := by
  simp [decodeFamilyE]

theorem decodeFamilyF_ldVxK (x : RegNum) : decodeFamilyF (formatXNN 0xF#4 x 0x0A#8) = .ok (.ldVxK x) := by
  simp [decodeFamilyF]

theorem decodeFamilyF_ldDtVx (x : RegNum) : decodeFamilyF (formatXNN 0xF#4 x 0x15#8) = .ok (.ldDtVx x) := by
  simp [decodeFamilyF]

theorem decodeFamilyF_ldStVx (x : RegNum) : decodeFamilyF (formatXNN 0xF#4 x 0x18#8) = .ok (.ldStVx x) := by
  simp [decodeFamilyF]

theorem decodeFamilyF_addI (x : RegNum) : decodeFamilyF (formatXNN 0xF#4 x 0x1E#8) = .ok (.addI x) := by
  simp [decodeFamilyF]

theorem decodeFamilyF_ldF (x : RegNum) : decodeFamilyF (formatXNN 0xF#4 x 0x29#8) = .ok (.ldF x) := by
  simp [decodeFamilyF]

/-! ### 8XY1, 8XY2, 8XY3 -/

/-- Settles O41: each of the three is one register write. -/
theorem logicCombinesBits : Obligations.LogicCombinesBits := by
  refine fun x y => ⟨?_, ?_, ?_, fun s => ⟨?_, ?_, ?_⟩⟩
  · exact (decodeWord_family8 x y 0x1#4).trans (decodeFamily8_orReg x y)
  · exact (decodeWord_family8 x y 0x2#4).trans (decodeFamily8_andReg x y)
  · exact (decodeWord_family8 x y 0x3#4).trans (decodeFamily8_xorReg x y)
  · refine ⟨_, rfl, s.setV_regsKept x _, rfl, fun k => ?_⟩
    rw [s.getV_setV_same]
    exact BitVec.getElem_or k.isLt
  · refine ⟨_, rfl, s.setV_regsKept x _, rfl, fun k => ?_⟩
    rw [s.getV_setV_same]
    exact BitVec.getElem_and k.isLt
  · refine ⟨_, rfl, s.setV_regsKept x _, rfl, fun k => ?_⟩
    rw [s.getV_setV_same]
    exact BitVec.getElem_xor k.isLt

/-! ### CXNN -/

theorem exec_rnd (x : RegNum) (nn : Byte) (s : State) :
    exec (.rnd x nn) s = .next ((s.setV x (s.env.draw &&& nn)).setEnv s.env.afterDraw) := rfl

theorem Env.draw_of_supplied (e : Env) (d : Byte) (ds : List Byte) (h : e.draws = d :: ds) :
    e.draw = d ∧ e.afterDraw = { e with draws := ds } := by
  simp only [Env.draw, Env.afterDraw, h, and_self]

theorem Env.afterDraw_of_none (e : Env) (h : e.draws = []) : e.afterDraw = { e with drawCount := e.drawCount + 1 } := by
  simp only [Env.afterDraw, h]

/-- Settles O48: the draw is the supplied byte where there is one. -/
theorem rndMasksOneDraw : Obligations.RndMasksOneDraw := by
  refine fun x nn => ⟨?_, fun s => ⟨fun d ds hsupplied => ?_, fun hnone => ?_⟩⟩
  · exact formatXNN_eq_ofNat 0xC#4 x nn ▸ decodeWord_rnd x nn
  · obtain ⟨hdraw, henv⟩ := s.env.draw_of_supplied d ds hsupplied
    rw [exec_rnd, hdraw, henv]
    exact ⟨_, rfl, s.getV_setV_same x _, s.setV_regsKept x _, rfl⟩
  · rw [exec_rnd, s.env.afterDraw_of_none hnone]
    exact ⟨_, rfl, ⟨s.env.draw, s.getV_setV_same x _⟩, s.setV_regsKept x _, rfl⟩

/-! ### EX9E, EXA1 -/

/-- A key number reads its key's line. -/
theorem withKey_of_key (s : State) (x : RegNum) (f : Bool → Out) (k : Fin 16) (h : (s.getV x).toNat = k.val) :
    withKey s x f = f s.ports.keys[k] := by
  have hkey : ¬ (s.getV x).toNat > 0xF := by omega
  rw [withKey, if_neg hkey, h, keyDown_eq_getElem]

/-- A value above 15 is no key number. -/
theorem withKey_of_range (s : State) (x : RegNum) (f : Bool → Out) (h : 16 ≤ (s.getV x).toNat) :
    withKey s x f = .fault (.raised (.keyRange (s.getV x))) :=
  if_pos h

/-- Settles O51: a key number reads one line, which decides the skip; any other value is the fault. -/
theorem skipOnKey : Obligations.SkipOnKey := by
  refine fun x => ⟨?_, ?_, fun s => ⟨fun k hk => ⟨?_, ?_⟩, fun hrange => ⟨?_, ?_⟩⟩⟩
  · exact (decodeWord_familyE x 0x9E#8).trans (decodeFamilyE_skp x)
  · exact (decodeWord_familyE x 0xA1#8).trans (decodeFamilyE_sknp x)
  · rw [exec_skp, withKey_of_key s x _ k hk]
    exact ⟨_, rfl, s.skipIf_pc_toNat _, s.skipIf_frame _⟩
  · rw [exec_sknp, withKey_of_key s x _ k hk]
    refine ⟨_, rfl, ?_, s.skipIf_frame _⟩
    rw [s.skipIf_pc_toNat]
    cases s.ports.keys[k] <;> rfl
  · rw [exec_skp, withKey_of_range s x _ hrange]
  · rw [exec_sknp, withKey_of_range s x _ hrange]

/-! ### FX0A, FX15, FX18 -/

theorem exec_ldVxK (x : RegNum) (s : State) : exec (.ldVxK x) s = .next (s.setMode (.waitingForKey x)) := rfl

theorem exec_ldDtVx (x : RegNum) (s : State) : exec (.ldDtVx x) s = .next (s.setDt (s.getV x)) := rfl

theorem exec_ldStVx (x : RegNum) (s : State) : exec (.ldStVx x) s = .next (s.setSt (s.getV x)) := rfl

theorem State.pollTick_pendingTicks (s : State) : s.pollTick.pendingTicks = s.pendingTicks - 1 := by
  unfold State.pollTick
  split
  · next h => rw [h]
  · rfl

/-- The poll takes one off each timer when a tick is pending, and never below 0 (R136). -/
theorem State.toNat_pollTick_timers (s : State) :
    s.pollTick.dt.toNat = s.dt.toNat - (if 0 < s.pendingTicks then 1 else 0) ∧
    s.pollTick.st.toNat = s.st.toNat - (if 0 < s.pendingTicks then 1 else 0) := by
  by_cases h : 0 < s.pendingTicks
  · simp [s.pollTick_of_tick h, h]
  · simp [s.pollTick_of_no_tick (Nat.eq_zero_of_not_pos h), h]

/-- Settles O53: the instruction writes the mode only, and service polls its tick. -/
theorem ldVxKEntersTheKeyWait : Obligations.LdVxKEntersTheKeyWait := by
  refine fun x => ⟨?_, fun s => ⟨⟨_, exec_ldVxK x s, rfl, rfl⟩, fun hruns => ?_⟩⟩
  · exact (decodeWord_familyF x 0x0A#8).trans (decodeFamilyF_ldVxK x)
  · refine ⟨_, step_of_runs s _ _ hruns (exec_ldVxK x s.executing), ?_, ?_, ?_, ?_⟩
    · exact State.service_mode _
    · exact State.service_pc _
    · exact State.service_v _
    · exact (State.service_pendingTicks _).trans (State.pollTick_pendingTicks _)

/-- Settles O54: the poll comes after the write, and the gate after the poll. -/
theorem timerWritesMeetTheSameCyclesTick : Obligations.TimerWritesMeetTheSameCyclesTick := by
  refine fun x => ⟨?_, ?_, fun s => ⟨⟨_, exec_ldDtVx x s, rfl, rfl⟩, ⟨_, exec_ldStVx x s, rfl, rfl⟩, fun hruns => ?_,
    fun hruns => ?_⟩⟩
  · exact (decodeWord_familyF x 0x15#8).trans (decodeFamilyF_ldDtVx x)
  · exact (decodeWord_familyF x 0x18#8).trans (decodeFamilyF_ldStVx x)
  · refine ⟨_, step_of_runs s _ _ hruns (exec_ldDtVx x s.executing), ?_⟩
    rw [State.service_dt]
    exact (State.toNat_pollTick_timers _).1
  · refine ⟨_, step_of_runs s _ _ hruns (exec_ldStVx x s.executing), ?_⟩
    rw [State.service_buzzer, State.service_st, (State.toNat_pollTick_timers _).2]
    exact ⟨rfl, rfl⟩

/-! ### FX1E, FX29 -/

/-- Five times a byte does not wrap in a word. -/
theorem toNat_glyphAddress (v : Byte) : (glyphAddress v).toNat = v.toNat * 5 := by
  have hv := v.isLt
  have haddr : Config.fontBase + v.toNat * Config.glyphBytes = v.toNat * 5 := Nat.zero_add _
  rw [glyphAddress, haddr, BitVec.toNat_ofNat]
  omega

/-- Settles O55: each of the two is one write of `I`. -/
theorem indexArithmetic : Obligations.IndexArithmetic := by
  refine fun x => ⟨?_, ?_, fun s => ⟨⟨_, rfl, ?_, rfl⟩, ⟨_, rfl, toNat_glyphAddress _, rfl⟩⟩⟩
  · exact (decodeWord_familyF x 0x1E#8).trans (decodeFamilyF_addI x)
  · exact (decodeWord_familyF x 0x29#8).trans (decodeFamilyF_ldF x)
  · rw [State.setI_i, BitVec.toNat_add, toNat_zextByte]

end Sys2Proof.Machine
end
